-- ==== Sys2Proof/Word.lean ====
section
/-! DEFINITION. The bit vectors of the block, each at the width the spec gives it: the command word and its fields
(rule R80), the codes (rules R21, R81), the payload bytes (R22), the measurement (R32), the frame (R65).
`PORT_W` = 32, `PIN_W` = 16 and `US_W` = 32 are the values of the parameter table of rule R1 (log entry 3). -/

namespace Sys2Proof

/-- One byte of the Raw Payload (rule R22). -/
abbrev Byte := BitVec 8

/-- A port identifier: `PORT_W` = 32 bits (rules R1, R80). -/
abbrev PortId := BitVec 32

/-- A pin bitmask: `PIN_W` = 16 bits (rules R1, R80). -/
abbrev PinMask := BitVec 16

/-- The DELAY operand, microseconds: `US_W` = 32 bits, unsigned (rules R1, R80). -/
abbrev Micros := BitVec 32

/-- An operation code, bits 81:80 of the command word (rule R80). -/
abbrev OpCode := BitVec 2

/-- A phase code (rule R20). -/
abbrev PhaseCode := BitVec 5

/-- The command word, op then port then pin then us from bit 81 down (rule R80). -/
abbrev CmdWord := BitVec 82

/-- A measurement register: unsigned tenths of a unit (rules R32, R87). -/
abbrev Tenths := BitVec 16

/-- The 40-bit frame as one number, first-received bit at bit 39 (rule R65). -/
abbrev Frame := BitVec 40

/-- The bits-stored counter, 6 bits wide (rule R23). -/
abbrev BitCount := BitVec 6

end Sys2Proof
end

