-- ==== Sys2Proof/Syntax.lean ====
section
/-! DEFINITION. The names of the spec: line levels, pad directions, status codes, handles, the 17 phases, and `Instr`,
one constructor per row of the opcode table (four commands of format CMD, seventeen phases of format PHASE). -/

namespace Sys2Proof

/-- A level of the line: 1 is high, 0 is low (rule R94). -/
inductive Level
  | low
  | high
  deriving DecidableEq, Repr, Inhabited

/-- The direction of the pad, register `LINE_DIR` (rule R27). -/
inductive LineDir
  | input
  | output
  deriving DecidableEq, Repr, Inhabited

/-- The Status Code of a READ. The value 3 is reserved and never written, so it is no member (rules R83, R84, D31). -/
inductive Status
  | ok
  | error
  | timeout
  deriving DecidableEq, Repr, Inhabited

/-- The Signal Line Handle, a port identifier and a pin bitmask (rules R26, R85). -/
structure Handle where
  port : PortId
  pin : PinMask
  deriving DecidableEq, Repr, Inhabited

/-- The 17 phases of rule R21. Codes 17 to 31 are no phase (rule R90). -/
inductive Phase
  | idle
  | dWait
  | rSetout
  | rDrvLow
  | rLowHold
  | rDrvHigh
  | rHighHold
  | rRelease
  | rHs1
  | rHs2
  | rHs3
  | rBitLow
  | rBitDly
  | rBitSample
  | rBitHigh
  | rValidate
  | rTimeout
  deriving DecidableEq, Repr, Inhabited

/-- One constructor per row of the opcode table. A command keeps all three fields of its word, the ignored ones too
(rule R82), so that no bit of the word is lost. A phase has no operand. -/
inductive Instr
  | delay (port : PortId) (pin : PinMask) (us : Micros)
  | setout (port : PortId) (pin : PinMask) (us : Micros)
  | setin (port : PortId) (pin : PinMask) (us : Micros)
  | read (port : PortId) (pin : PinMask) (us : Micros)
  | idle
  | dWait
  | rSetout
  | rDrvLow
  | rLowHold
  | rDrvHigh
  | rHighHold
  | rRelease
  | rHs1
  | rHs2
  | rHs3
  | rBitLow
  | rBitDly
  | rBitSample
  | rBitHigh
  | rValidate
  | rTimeout
  deriving DecidableEq, Repr

end Sys2Proof
end

