-- ==== Sys2Proof/Config.lean ====
section
/-! DEFINITION. What an implementation fixes (the parameters of rule R1) and what the environment chooses (the input
record of rule R6, the freely drawn pad level of rule R28). The OPEN parameters and the free values are constants with
no body: nothing can be proved of them but that they are admissible. -/

namespace Sys2Proof

/-- The parameters of rule R1, fixed for the whole of a run. `waitBudget = none` is `INF`. -/
structure Params where
  /-- `TICK_US`, microseconds per tick. -/
  tickUs : Nat
  /-- `CYCLES_PER_TICK`. -/
  cyclesPerTick : Nat
  /-- `T_START_LOW_US`. -/
  tStartLowUs : Nat
  /-- `T_RELEASE_US`. -/
  tReleaseUs : Nat
  /-- `T_SAMPLE_US`. -/
  tSampleUs : Nat
  /-- `WAIT_BUDGET`; `none` is `INF`, the baseline's unbounded wait (rule R4). -/
  waitBudget : Option Nat
  /-- `INVALID_HANDLE_STATUS`, Error or Timeout (rule R131). -/
  invalidHandleStatus : Status
  /-- `MIN_REREAD_INTERVAL` in microseconds: a duty of the host, read by no rule of the block (rule R239). -/
  minRereadUs : Nat
  deriving DecidableEq, Repr

/-- The admissible values of rule R1's table. -/
structure Params.Admissible (p : Params) : Prop where
  tick : 1 ≤ p.tickUs
  cycles : 1 ≤ p.cyclesPerTick
  startLow : 1000 ≤ p.tStartLowUs
  budget : p.waitBudget ≠ some 0
  invalidStatus : p.invalidHandleStatus ≠ .ok

/-- The input record of one clock cycle (rule R6). -/
structure Input where
  rst : Bool
  cmdValid : Bool
  cmdOp : OpCode
  cmdPort : PortId
  cmdPin : PinMask
  cmdUs : Micros
  lineIn : Level
  deriving DecidableEq, Repr, Inhabited

namespace Config

/-- `N_BITS`, bits in one frame (rule R1). -/
abbrev nBits : Nat := 40

/-- `N_BYTES`, bytes in one frame (rule R1). -/
abbrev nBytes : Nat := 5

/-- OPEN: `TICK_US` - 1 (rule R1; log entry 2). -/
opaque tickExcess : Nat

/-- OPEN: `CYCLES_PER_TICK` - 1 (rule R1; log entry 2). -/
opaque cyclesExcess : Nat

/-- OPEN: `T_START_LOW_US` - 1000 (rule R1; log entry 2). -/
opaque startLowExcess : Nat

/-- OPEN: `WAIT_BUDGET` - 1, or `none` for `INF` (rules R1, R4; log entry 2). -/
opaque budgetExcess : Option Nat

/-- OPEN: whether `INVALID_HANDLE_STATUS` is Error; otherwise it is Timeout (rule R1; log entry 2). -/
opaque invalidHandleIsError : Bool

/-- OPEN: `MIN_REREAD_INTERVAL` in microseconds (rules R1, R239; log entry 2). -/
opaque rereadInterval : Nat

/-- The parameters of the machine: every OPEN one at an unknown admissible value, `T_RELEASE_US` and `T_SAMPLE_US` at
the values of rule R1's table. -/
def params : Params where
  tickUs := tickExcess + 1
  cyclesPerTick := cyclesExcess + 1
  tStartLowUs := startLowExcess + 1000
  tReleaseUs := 20
  tSampleUs := 30
  waitBudget := budgetExcess.map (· + 1)
  invalidHandleStatus := if invalidHandleIsError then .error else .timeout
  minRereadUs := rereadInterval

/-- FREE: the input record the environment gives in a cycle for which none is scheduled (rules R36, R74, R75; log
entry 1). -/
opaque freeInput : Nat → Input

/-- FREE: the level a cycle's pad shows while it is driven with no value latched: "a draw, under no law" (rule R28; log
entry 4). -/
opaque freePadLevel : Nat → Level

end Config

end Sys2Proof
end

