-- ==== Sys2Proof/Machine/State.lean ====
section
/-! DEFINITION. The state of the block, one field per register of `10_state.md`, then the four fields that are the
model's own (the environment's scheduled inputs, the cycle number, the run's handle, the parameters), and the reasons a step can stop. -/

namespace Sys2Proof.Machine

/-- The Raw Payload, five byte registers `B[0]`..`B[4]` (rule R22). -/
structure Payload where
  b0 : Byte
  b1 : Byte
  b2 : Byte
  b3 : Byte
  b4 : Byte
  deriving DecidableEq, Repr

/-- The whole machine. An `Option` register is one for which the spec itself has the value `X`, "no value" (rules R28,
R32, R38); it stands for no missing reset value. -/
structure State where
  /-- `PHASE` (rules R20, R21). -/
  phase : Phase
  /-- `B[0]`..`B[4]` (rule R22). -/
  payload : Payload
  /-- `BITIDX`, 6 bits (rule R23). -/
  bitIdx : BitCount
  /-- `DELAY_CNT`, an unbounded natural (rule R24). -/
  delayCnt : Nat
  /-- `WAIT_CNT`, an unbounded natural (rule R25). -/
  waitCnt : Nat
  /-- `HANDLE` = (`HPORT`, `HPIN`) (rule R26). -/
  handle : Handle
  /-- `LINE_DIR` (rule R27). -/
  lineDir : LineDir
  /-- `LINE_DRV`; `none` is `X` (rule R28). -/
  lineDrv : Option Level
  /-- `STATUS` (rule R29). -/
  status : Status
  /-- `DONE` (rule R30). -/
  done : Bool
  /-- `MEAS_VALID` (rule R31). -/
  measValid : Bool
  /-- `H_RAW`; `none` is `X` (rules R32, R38). -/
  hRaw : Option Tenths
  /-- `T_RAW`; `none` is `X` (rules R32, R38). -/
  tRaw : Option Tenths
  /-- MODEL'S OWN: the input records scheduled for this cycle and the following ones, this cycle's first (rules R5,
  R36; log entry 1). -/
  inputs : List Input
  /-- MODEL'S OWN: the number of the cycle, the argument of the free values (log entries 1, 4). -/
  cycle : Nat
  /-- MODEL'S OWN: the valid handle that the line commands accepted in this run were given; `none` before the first. It
  is no register: a reset clears `HANDLE` and does not end the run, so it keeps this field (rule R233; log entry 7). -/
  runHandle : Option Handle
  /-- MODEL'S OWN: the parameters of rule R1, which no step changes (rule R36; log entry 2). -/
  params : Params
  deriving DecidableEq, Repr

/-- Why the machine stops with a fault. -/
inductive Fault
  /-- Raised by R_BIT_SAMPLE when `BITIDX` is 40 or more: there is no payload byte to store to, and rule R171 says that
  the sequencer never asks for it. Safe: no state reached from reset raises it (log entry 5). -/
  | payloadIndexOutOfRange
  deriving DecidableEq, Repr

/-- Why an instruction has no meaning. -/
inductive Refusal
  /-- Raised by `exec`'s arm of an instruction that is not modelled yet. Safe. No arm raises it in this model. -/
  | notModelled (mnemonic : String)
  /-- Raised by SETOUT, SETIN and READ given a valid handle whose pin mask has several bits set: "The model refuses such
  a command (gives it no meaning) rather than guess" (rule R95, U15). Safe (log entry 6). -/
  | severalPins
  /-- Raised by SETOUT, SETIN and READ given a valid handle other than the one this run has used: "the model has one
  pad and gives such a run no meaning" (rule R233, U16, D7). Safe (log entry 7). -/
  | handleChanged
  deriving DecidableEq, Repr

/-- The machine right after reset (rule R230). The four model's own fields: nothing scheduled, cycle 0, no handle
used yet, and the parameters of the configuration (log entries 1, 2, 7). -/
def State.reset : State where
  phase := .idle
  payload := ⟨0, 0, 0, 0, 0⟩
  bitIdx := 0
  delayCnt := 0
  waitCnt := 0
  handle := ⟨0, 0⟩
  lineDir := .input
  lineDrv := none
  status := .error
  done := false
  measValid := false
  hRaw := none
  tRaw := none
  inputs := []
  cycle := 0
  runHandle := none
  params := Config.params

end Sys2Proof.Machine
end

