-- ==== Sys2Proof/Machine/Payload.lean ====
section
/-! DEFINITION. The three pure functions of `43_payload_checksum.md`: the payload assembler (rules R171, R172), the
checksum-8 validator (rules R173, R174), the measurement derivation (rules R175, R183). None writes state (rule R180). -/

namespace Sys2Proof.Machine

/-- The zeroed payload a READ starts with (rules R132, R170). -/
def Payload.zero : Payload := ⟨0, 0, 0, 0, 0⟩

/-- `B[j]`, `j` in 0..4. -/
def Payload.byte (b : Payload) : Nat → Byte
  | 0 => b.b0
  | 1 => b.b1
  | 2 => b.b2
  | 3 => b.b3
  | _ => b.b4

/-- Received bit `k` of the frame: bit `7 - (k mod 8)` of byte `k div 8` (rules R63, R86). -/
def Payload.bit (b : Payload) (k : Nat) : Bool :=
  (b.byte (k / 8)).getLsbD (7 - k % 8)

/-- A byte with bit `i` set to `v`. -/
def setBit (b : Byte) (i : Nat) (v : Bool) : Byte :=
  if v then b ||| BitVec.twoPow 8 i else b &&& ~~~ BitVec.twoPow 8 i

/-- `AssembleBit(k, b)`: `B[k div 8][7 - (k mod 8)] <- b`, every other bit kept (rule R171). -/
def assembleBit (k : Nat) (v : Bool) (b : Payload) : Payload :=
  match k / 8 with
  | 0 => { b with b0 := setBit b.b0 (7 - k % 8) v }
  | 1 => { b with b1 := setBit b.b1 (7 - k % 8) v }
  | 2 => { b with b2 := setBit b.b2 (7 - k % 8) v }
  | 3 => { b with b3 := setBit b.b3 (7 - k % 8) v }
  | 4 => { b with b4 := setBit b.b4 (7 - k % 8) v }
  | _ => b

/-- One sample of the shift-register form: `F <- {F[38:0], b}` (rule R172). -/
def shiftIn (f : Frame) (v : Bool) : Frame :=
  (f.extractLsb' 0 39 : BitVec 39) ++ BitVec.ofBool v

/-- The bytes of a whole frame: `B[0] = F[39:32]` down to `B[4] = F[7:0]` (rules R65, R172). -/
def Payload.ofFrame (f : Frame) : Payload where
  b0 := f.extractLsb' 32 8
  b1 := f.extractLsb' 24 8
  b2 := f.extractLsb' 16 8
  b3 := f.extractLsb' 8 8
  b4 := f.extractLsb' 0 8

/-- `Checksum8(B) = (B[0] + B[1] + B[2] + B[3]) mod 256`, the sum taken in the naturals (rule R173). -/
def checksum8 (b : Payload) : Byte :=
  BitVec.ofNat 8 ((b.b0.toNat + b.b1.toNat + b.b2.toNat + b.b3.toNat) % 256)

/-- `ChecksumOk(B)`: `B[4] = Checksum8(B)` (rule R174). -/
def checksumOk (b : Payload) : Bool :=
  b.b4 == checksum8 b

/-- The humidity in tenths, `B[0]*256 + B[1]` (rule R175). -/
def humidityOf (b : Payload) : Tenths :=
  BitVec.ofNat 16 (b.b0.toNat * 256 + b.b1.toNat)

/-- The temperature in tenths, `B[2]*256 + B[3]`, unsigned (rules R175, R177). -/
def temperatureOf (b : Payload) : Tenths :=
  BitVec.ofNat 16 (b.b2.toNat * 256 + b.b3.toNat)

/-- `DecodeMeasurement(B)` (rule R175). -/
def decodeMeasurement (b : Payload) : Tenths × Tenths :=
  (humidityOf b, temperatureOf b)

/-- The payload that carries a measurement (rule R183). -/
def encodeMeasurement (h t : Tenths) : Payload :=
  let b0 : Byte := BitVec.ofNat 8 (h.toNat / 256)
  let b1 : Byte := BitVec.ofNat 8 (h.toNat % 256)
  let b2 : Byte := BitVec.ofNat 8 (t.toNat / 256)
  let b3 : Byte := BitVec.ofNat 8 (t.toNat % 256)
  ⟨b0, b1, b2, b3, checksum8 ⟨b0, b1, b2, b3, 0⟩⟩

end Sys2Proof.Machine
end

