-- ==== Sys2Proof/Machine/Flags.lean ====
section
/-! DEFINITION. The flags and the status register: `DONE` (rule R30), `MEAS_VALID` (R31), `STATUS` (R29), and
`complete(s)`, the common end of every operation (R209). There are no arithmetic flags. -/

namespace Sys2Proof.Machine

/-- The default part of every cycle: `DONE <- 0` (rules R7, R30). -/
def State.clearDone (s : State) : State :=
  { s with done := false }

/-- `MEAS_VALID <- 0`, at every accepted READ (rules R31, R130). -/
def State.clearMeasValid (s : State) : State :=
  { s with measValid := false }

/-- `complete` for an operation with no status: `DONE <- 1; PHASE <- IDLE` (rule R209). -/
def State.complete (s : State) : State :=
  { s with done := true, phase := .idle }

/-- `complete(status)`, the end of a READ: `STATUS <- status; DONE <- 1; PHASE <- IDLE` (rule R209). It stands where a
processor takes an exception: nothing is saved and no control transfer happens. -/
def State.completeRead (st : Status) (s : State) : State :=
  { s.complete with status := st }

/-- Publishing a measurement: `H_RAW`, `T_RAW`, `MEAS_VALID <- 1` (rules R147, R180). -/
def State.publish (b : Payload) (s : State) : State :=
  { s with hRaw := some (humidityOf b), tRaw := some (temperatureOf b), measValid := true }

end Sys2Proof.Machine
end

