-- ==== Sys2Proof/Machine/Operands.lean ====
section
/-! DEFINITION. The operand forms: the handle and its validity (rules R85, R95), the DELAY operand (rules R2, R88), the
wait bound (rule R139), the one-bit encodings (rule R94). -/

namespace Sys2Proof

/-- `HandleValid(p, m)`: "`port != 0 and pin != 0`. No other test is made" (rule R85). -/
def Handle.valid (h : Handle) : Bool :=
  h.port != 0 && h.pin != 0

/-- The null handle: no line selected, the reset value of `HANDLE` (rule R26). -/
def Handle.null : Handle := ⟨0, 0⟩

/-- Exactly one bit of the mask is set, what rule R95 expects of a pin. -/
def pinSingle (m : PinMask) : Bool :=
  (List.range 16).any fun i => m == BitVec.twoPow 16 i

/-- A handle that names one line: valid (rule R85), and one pin selected (rule R95). -/
def Handle.single (h : Handle) : Bool :=
  h.valid && pinSingle h.pin

/-- `Ncyc(us)`: the cycles a delay of `us` microseconds is counted for, whole ticks only (rule R2). -/
def ncyc (p : Params) (us : Nat) : Nat :=
  us / p.tickUs * p.cyclesPerTick

/-- `NL`, the cycles counted in R_LOW_HOLD (rules R107, R152). -/
def Params.nl (p : Params) : Nat := ncyc p p.tStartLowUs

/-- `NR`, the cycles counted in R_HIGH_HOLD (rules R107, R152). -/
def Params.nr (p : Params) : Nat := ncyc p p.tReleaseUs

/-- `NS`, the cycles counted in R_BIT_DLY (rules R107, R152). -/
def Params.ns (p : Params) : Nat := ncyc p p.tSampleUs

/-- `n >= WAIT_BUDGET`, "never true when WAIT_BUDGET = INF" (rule R139). -/
def Params.budgetMet (p : Params) (n : Nat) : Bool :=
  match p.waitBudget with
  | none => false
  | some w => decide (w ≤ n)

/-- The length of a cycle in microseconds, `TICK_US / CYCLES_PER_TICK` (rule R3). No rule of the block reads it. -/
def Params.cycleUs (p : Params) : Rat :=
  (p.tickUs : Rat) / (p.cyclesPerTick : Rat)

/-- A sampled bit: "high means bit value 1, otherwise 0" (rules R94, R145). -/
def Level.bit : Level → Bool
  | .low => false
  | .high => true

/-- The one-bit code of the pad's direction: 0 INPUT, 1 OUTPUT (rules R27, R94). -/
def LineDir.bit : LineDir → Bool
  | .input => false
  | .output => true

end Sys2Proof
end

