-- ==== Sys2Proof/Machine/Ops.lean ====
section
/-! DEFINITION. The shared operations: the input record of a cycle, the line primitives (rules R61, R110, R111, R116), the
delay counter (R103, R107), the bounded wait (R139), the payload store (R145), reset (R230). Every right-hand side is
evaluated on the state the cycle begins with (rule R5). -/

namespace Sys2Proof.Machine

/-! ### The environment -/

/-- The input record of the cycle `k` cycles from now: the scheduled one, or where none is scheduled a free value (log
entry 1). -/
def State.inputAt (s : State) (k : Nat) : Input :=
  (s.inputs[k]?).getD (Config.freeInput (s.cycle + k))

/-- `I`, the input record of this cycle (rule R6). -/
def State.input (s : State) : Input :=
  s.inputAt 0

/-- `LineRead()`: "the value `I.line_in` of the current cycle" (rule R61; log entry 11). -/
def State.lineRead (s : State) : Level :=
  s.input.lineIn

/-- What every cycle does before its phase rule: the default `DONE <- 0` (rule R7); the environment goes on to its next
record. -/
def State.nextCycle (s : State) : State :=
  { s.clearDone with inputs := s.inputs.tail, cycle := s.cycle + 1 }

/-- A cycle with `rst = 1`: every register at its reset value (rule R230). The model's own fields go on:
the run does, and with it the handle it uses (rule R233; log entry 7). -/
def State.resetCycle (s : State) : State :=
  { State.reset with inputs := s.inputs.tail, cycle := s.cycle + 1, runHandle := s.runHandle, params := s.params }

/-! ### Control -/

/-- `PHASE <- p`. -/
def State.goto (p : Phase) (s : State) : State :=
  { s with phase := p }

/-! ### The line -/

/-- `SetOutput(h)`: with a valid handle `LINE_DIR <- OUTPUT; LINE_DRV <- X`, else nothing (rules R110, R112). -/
def State.setOutput (h : Handle) (s : State) : State :=
  if h.valid then { s with lineDir := .output, lineDrv := none } else s

/-- `SetInput(h)`: with a valid handle `LINE_DIR <- INPUT`, else nothing (rules R111, R112). -/
def State.setInput (h : Handle) (s : State) : State :=
  if h.valid then { s with lineDir := .input } else s

/-- `DriveLine(v)`: `LINE_DRV <- v` (rule R116). -/
def State.driveLine (v : Level) (s : State) : State :=
  { s with lineDrv := some v }

/-- `if HandleValid(h) then HANDLE <- h` (rules R26, R114, R115); `h` is then the handle of the run (rule R233). -/
def State.latchHandle (h : Handle) (s : State) : State :=
  if h.valid then { s with handle := h, runHandle := some h } else s

/-- Why the model refuses a line command's handle: several pins (rule R95), or a valid handle other than the one this
run has used, before a reset or after it (rule R233). An invalid handle is never refused: it has its own rules, R112 and R131 (log entries 6, 7). -/
def lineRefusal (h : Handle) (s : State) : Option Refusal :=
  if !h.valid then none
  else if !pinSingle h.pin then some .severalPins
  else if s.runHandle.any (· != h) then some .handleChanged
  else none

/-- The frame of SETOUT, SETIN and READ: refused, or one cycle with the given effect. -/
def onLine (h : Handle) (s : State) (effect : State → State) : Host.Outcome State Fault Refusal :=
  match lineRefusal h s with
  | some r => .refused r
  | none => .next (effect s.nextCycle)

/-! ### The counters -/

/-- `DELAY_CNT <- n`. -/
def State.loadDelay (n : Nat) (s : State) : State :=
  { s with delayCnt := n }

/-- `WAIT_CNT <- 0`. -/
def State.clearWait (s : State) : State :=
  { s with waitCnt := 0 }

/-- The body of a counting phase: `if DELAY_CNT = 0` the given exit, `else DELAY_CNT <- DELAY_CNT - 1` (rules R103,
R107). -/
def State.countDown (exit : State → State) (s : State) : State :=
  if s.delayCnt = 0 then exit s.nextCycle
  else { s.nextCycle with delayCnt := s.delayCnt - 1 }

/-- `BoundedWait(held, exit)`: the level test first, then the budget (rules R139, R208). -/
def State.boundedWait (held : Level) (exit : State → State) (s : State) : State :=
  if s.lineRead ≠ held then exit s.nextCycle.clearWait
  else if s.params.budgetMet (s.waitCnt + 1) then s.nextCycle.goto .rTimeout
  else { s.nextCycle with waitCnt := s.waitCnt + 1 }

/-! ### The payload -/

/-- A fresh payload: `B[0..4] <- 0; BITIDX <- 0` (rules R132, R170). -/
def State.freshPayload (s : State) : State :=
  { s with payload := .zero, bitIdx := 0 }

/-- `AssembleBit(BITIDX, v)`, `BITIDX <- BITIDX + 1` (rule R145). -/
def State.storeBit (v : Level) (s : State) : State :=
  { s with payload := assembleBit s.bitIdx.toNat v.bit s.payload, bitIdx := s.bitIdx + 1 }

end Sys2Proof.Machine
end

