-- ==== Sys2Proof/Machine/BitSampling.lean ====
section
/-! DEFINITION. The bit loop of a READ (rules R143 to R146). -/

namespace Sys2Proof.Machine

/-- R_BIT_LOW: wait while the line is low; at the exit load the sample delay (rule R143). -/
def execRBitLow (s : State) : Host.Outcome State Fault Refusal :=
  .next (s.boundedWait .low fun t => (t.loadDelay s.params.ns).goto .rBitDly)

/-- R_BIT_DLY: count the sample delay, the line not looked at (rule R144). -/
def execRBitDly (s : State) : Host.Outcome State Fault Refusal :=
  .next (s.countDown (State.goto .rBitSample))

/-- R_BIT_SAMPLE: store the level as bit `BITIDX` of the frame (rule R145). `BITIDX` is below 40 in every reachable
state; at 40 or more there is no payload byte to store to, and the model stops (log entry 5). -/
def execRBitSample (s : State) : Host.Outcome State Fault Refusal :=
  if s.bitIdx.toNat < Config.nBits then
    .next (((s.nextCycle.storeBit s.lineRead).clearWait).goto .rBitHigh)
  else .fault .payloadIndexOutOfRange

/-- R_BIT_HIGH: wait while the line is high; then validate after the 40th bit, else the next bit (rule R146). -/
def execRBitHigh (s : State) : Host.Outcome State Fault Refusal :=
  .next (s.boundedWait .high (State.goto (if s.bitIdx.toNat = Config.nBits then .rValidate else .rBitLow)))

end Sys2Proof.Machine
end

