-- ==== Sys2Proof/Machine/Handshake.lean ====
section
/-! DEFINITION. The three handshake waits of a READ: while high, while low, while high (rules R140 to R142; conflict C5). -/

namespace Sys2Proof.Machine

/-- R_HS1: wait while the line is high (rule R140). -/
def execRHs1 (s : State) : Host.Outcome State Fault Refusal :=
  .next (s.boundedWait .high (State.goto .rHs2))

/-- R_HS2: wait while the line is low (rule R141). -/
def execRHs2 (s : State) : Host.Outcome State Fault Refusal :=
  .next (s.boundedWait .low (State.goto .rHs3))

/-- R_HS3: wait while the line is high (rule R142). -/
def execRHs3 (s : State) : Host.Outcome State Fault Refusal :=
  .next (s.boundedWait .high (State.goto .rBitLow))

end Sys2Proof.Machine
end

