-- ==== Sys2Proof/Machine/LineControl.lean ====
section
/-! DEFINITION. The line-direction controller's host commands, SETOUT (rule R114) and SETIN (rule R115). -/

namespace Sys2Proof.Machine

/-- SETOUT: `SetOutput(h)`, latch a valid handle, complete; `us` ignored (rules R82, R114). -/
def execSetout (port : PortId) (pin : PinMask) (_us : Micros) (s : State) : Host.Outcome State Fault Refusal :=
  onLine ⟨port, pin⟩ s fun t => ((t.setOutput ⟨port, pin⟩).latchHandle ⟨port, pin⟩).complete

/-- SETIN: `SetInput(h)`, latch a valid handle, complete; `us` ignored (rules R82, R115). -/
def execSetin (port : PortId) (pin : PinMask) (_us : Micros) (s : State) : Host.Outcome State Fault Refusal :=
  onLine ⟨port, pin⟩ s fun t => ((t.setInput ⟨port, pin⟩).latchHandle ⟨port, pin⟩).complete

end Sys2Proof.Machine
end

