-- ==== Sys2Proof/Machine/ReadCommand.lean ====
section
/-! DEFINITION. READ, acceptance (rules R130, R131, R132). The phases it starts are in StartSignal, Handshake,
BitSampling and Validation. -/

namespace Sys2Proof.Machine

/-- READ: `MEAS_VALID <- 0`; an invalid handle fails at once with `INVALID_HANDLE_STATUS` (rule R131); a valid one starts
the sequence with a fresh payload (rule R132). `us` ignored (rule R82). -/
def execRead (port : PortId) (pin : PinMask) (_us : Micros) (s : State) : Host.Outcome State Fault Refusal :=
  onLine ⟨port, pin⟩ s fun t =>
    if Handle.valid ⟨port, pin⟩ then
      ((t.clearMeasValid.latchHandle ⟨port, pin⟩).freshPayload).goto .rSetout
    else
      t.clearMeasValid.completeRead s.params.invalidHandleStatus

end Sys2Proof.Machine
end

