-- ==== Sys2Proof/Machine/Timing.lean ====
section
/-! DEFINITION. The timing primitive: DELAY (rule R102) and its phase D_WAIT (rule R103). -/

namespace Sys2Proof.Machine

/-- DELAY, acceptance: `DELAY_CNT <- Ncyc(us)`, `PHASE <- D_WAIT`; port and pin ignored (rules R82, R102). -/
def execDelay (_port : PortId) (_pin : PinMask) (us : Micros) (s : State) : Host.Outcome State Fault Refusal :=
  .next ((s.nextCycle.loadDelay (ncyc s.params us.toNat)).goto .dWait)

/-- D_WAIT: count down, at zero complete (rule R103). -/
def execDWait (s : State) : Host.Outcome State Fault Refusal :=
  .next (s.countDown State.complete)

end Sys2Proof.Machine
end

