-- ==== Sys2Proof/Machine/Idle.lean ====
section
/-! DEFINITION. IDLE: "A command is accepted only in a cycle where `PHASE = IDLE` (`cmd_ready = 1`) and `cmd_valid = 1`"
(rule R91); with none offered only the default of rule R7 applies. -/

namespace Sys2Proof.Machine

/-- Accepting the command on the command inputs (rules R81, R91). -/
def acceptCommand (i : Input) (s : State) : Host.Outcome State Fault Refusal :=
  if i.cmdOp = 0 then execDelay i.cmdPort i.cmdPin i.cmdUs s
  else if i.cmdOp = 1 then execSetout i.cmdPort i.cmdPin i.cmdUs s
  else if i.cmdOp = 2 then execSetin i.cmdPort i.cmdPin i.cmdUs s
  else execRead i.cmdPort i.cmdPin i.cmdUs s

/-- IDLE (rules R7, R91). -/
def execIdle (s : State) : Host.Outcome State Fault Refusal :=
  if s.input.cmdValid then acceptCommand s.input s else .next s.nextCycle

end Sys2Proof.Machine
end

