-- ==== Sys2Proof/Machine/StartSignal.lean ====
section
/-! DEFINITION. The start signal of a READ (rules R133 to R138). -/

namespace Sys2Proof.Machine

/-- R_SETOUT: `SetOutput(HANDLE)` (rule R133). -/
def execRSetout (s : State) : Host.Outcome State Fault Refusal :=
  .next ((s.nextCycle.setOutput s.handle).goto .rDrvLow)

/-- R_DRV_LOW: drive low, load the start-low delay (rule R134). -/
def execRDrvLow (s : State) : Host.Outcome State Fault Refusal :=
  .next (((s.nextCycle.driveLine .low).loadDelay s.params.nl).goto .rLowHold)

/-- R_LOW_HOLD: count the start-low delay (rule R135). -/
def execRLowHold (s : State) : Host.Outcome State Fault Refusal :=
  .next (s.countDown (State.goto .rDrvHigh))

/-- R_DRV_HIGH: drive high, load the release delay (rule R136). -/
def execRDrvHigh (s : State) : Host.Outcome State Fault Refusal :=
  .next (((s.nextCycle.driveLine .high).loadDelay s.params.nr).goto .rHighHold)

/-- R_HIGH_HOLD: count the release delay (rule R137). -/
def execRHighHold (s : State) : Host.Outcome State Fault Refusal :=
  .next (s.countDown (State.goto .rRelease))

/-- R_RELEASE: `SetInput(HANDLE)`, `WAIT_CNT <- 0` (rule R138). -/
def execRRelease (s : State) : Host.Outcome State Fault Refusal :=
  .next (((s.nextCycle.setInput s.handle).clearWait).goto .rHs1)

end Sys2Proof.Machine
end

