-- ==== Sys2Proof/Machine/Validation.lean ====
section
/-! DEFINITION. The two ends of a READ with a valid handle: R_VALIDATE (rule R147) and R_TIMEOUT (rule R148). -/

namespace Sys2Proof.Machine

/-- R_VALIDATE: with a good checksum publish and complete with Ok, else complete with Error (rule R147). -/
def execRValidate (s : State) : Host.Outcome State Fault Refusal :=
  .next (if checksumOk s.payload then (s.nextCycle.publish s.payload).completeRead .ok
    else s.nextCycle.completeRead .error)

/-- R_TIMEOUT: `SetInput(HANDLE)`, complete with Timeout (rule R148). -/
def execRTimeout (s : State) : Host.Outcome State Fault Refusal :=
  .next ((s.nextCycle.setInput s.handle).completeRead .timeout)

end Sys2Proof.Machine
end

