-- ==== Sys2Proof/Machine/Dispatch.lean ====
section
/-! DEFINITION. One arm per row of the opcode table, each one call of its meaning. -/

namespace Sys2Proof.Machine

def exec (i : Instr) (s : State) : Host.Outcome State Fault Refusal :=
  match i with
  | .delay port pin us => Sys2Proof.Machine.execDelay port pin us s
  | .setout port pin us => Sys2Proof.Machine.execSetout port pin us s
  | .setin port pin us => Sys2Proof.Machine.execSetin port pin us s
  | .read port pin us => Sys2Proof.Machine.execRead port pin us s
  | .idle => Sys2Proof.Machine.execIdle s
  | .dWait => Sys2Proof.Machine.execDWait s
  | .rSetout => Sys2Proof.Machine.execRSetout s
  | .rDrvLow => Sys2Proof.Machine.execRDrvLow s
  | .rLowHold => Sys2Proof.Machine.execRLowHold s
  | .rDrvHigh => Sys2Proof.Machine.execRDrvHigh s
  | .rHighHold => Sys2Proof.Machine.execRHighHold s
  | .rRelease => Sys2Proof.Machine.execRRelease s
  | .rHs1 => Sys2Proof.Machine.execRHs1 s
  | .rHs2 => Sys2Proof.Machine.execRHs2 s
  | .rHs3 => Sys2Proof.Machine.execRHs3 s
  | .rBitLow => Sys2Proof.Machine.execRBitLow s
  | .rBitDly => Sys2Proof.Machine.execRBitDly s
  | .rBitSample => Sys2Proof.Machine.execRBitSample s
  | .rBitHigh => Sys2Proof.Machine.execRBitHigh s
  | .rValidate => Sys2Proof.Machine.execRValidate s
  | .rTimeout => Sys2Proof.Machine.execRTimeout s

end Sys2Proof.Machine
end

