-- ==== Sys2Proof/Decode.lean ====
section
/-! DEFINITION. The two formats of the opcode table, CMD (an 82-bit command word, rules R80, R81) and PHASE (a 5-bit
phase code, rules R21, R89): the decoder, total on any bytes and rejecting by name; then the encoder, the table's rows
and the script syntax of rule R92. -/

namespace Sys2Proof

/-- Why some bytes are no row of the opcode table. -/
inductive DecodeError
  /-- Neither the 11 bytes of a command word nor the one byte of a phase code. -/
  | noSuchLength
  /-- A bit above the row's width is set (82 bits in 11 bytes, 5 bits in one byte). -/
  | paddingSet
  /-- A phase code from 17 to 31, never written (rules R21, R90). -/
  | reservedPhaseCode
  deriving DecidableEq, Repr

/-- A word of the opcode table in its format. -/
inductive TableWord
  | cmd (w : CmdWord)
  | phase (c : PhaseCode)
  deriving DecidableEq, Repr

/-! ### Codes -/

/-- The phase codes of rule R21. -/
def Phase.code : Phase → PhaseCode
  | .idle => 0
  | .dWait => 1
  | .rSetout => 2
  | .rDrvLow => 3
  | .rLowHold => 4
  | .rDrvHigh => 5
  | .rHighHold => 6
  | .rRelease => 7
  | .rHs1 => 8
  | .rHs2 => 9
  | .rHs3 => 10
  | .rBitLow => 11
  | .rBitDly => 12
  | .rBitSample => 13
  | .rBitHigh => 14
  | .rValidate => 15
  | .rTimeout => 16

/-- The phases in the order of their codes. -/
def Phase.all : List Phase :=
  [.idle, .dWait, .rSetout, .rDrvLow, .rLowHold, .rDrvHigh, .rHighHold, .rRelease, .rHs1, .rHs2, .rHs3, .rBitLow,
    .rBitDly, .rBitSample, .rBitHigh, .rValidate, .rTimeout]

/-- The phase of a code; codes 17 to 31 have none (rules R21, R90). -/
def Phase.ofCode (c : PhaseCode) : Option Phase :=
  Phase.all.find? fun p => p.code == c

/-- The instruction a phase stands for, its row of format PHASE. -/
def Phase.toInstr : Phase → Instr
  | .idle => .idle
  | .dWait => .dWait
  | .rSetout => .rSetout
  | .rDrvLow => .rDrvLow
  | .rLowHold => .rLowHold
  | .rDrvHigh => .rDrvHigh
  | .rHighHold => .rHighHold
  | .rRelease => .rRelease
  | .rHs1 => .rHs1
  | .rHs2 => .rHs2
  | .rHs3 => .rHs3
  | .rBitLow => .rBitLow
  | .rBitDly => .rBitDly
  | .rBitSample => .rBitSample
  | .rBitHigh => .rBitHigh
  | .rValidate => .rValidate
  | .rTimeout => .rTimeout

/-- The Status Code, 2 bits; 3 is reserved (rules R83, R84). -/
def Status.code : Status → BitVec 2
  | .ok => 0
  | .error => 1
  | .timeout => 2

/-! ### The command word -/

/-- The command of an operation code: 0 DELAY, 1 SETOUT, 2 SETIN, 3 READ (rule R81). -/
def cmdInstr (op : OpCode) (port : PortId) (pin : PinMask) (us : Micros) : Instr :=
  if op = 0 then .delay port pin us
  else if op = 1 then .setout port pin us
  else if op = 2 then .setin port pin us
  else .read port pin us

/-- The fields of a command word by rule R80's table: op 81:80, port 79:48, pin 47:32, us 31:0. -/
def cmdOpOf (w : CmdWord) : OpCode := w.extractLsb' 80 2

@[inherit_doc cmdOpOf] def cmdPortOf (w : CmdWord) : PortId := w.extractLsb' 48 32

@[inherit_doc cmdOpOf] def cmdPinOf (w : CmdWord) : PinMask := w.extractLsb' 32 16

@[inherit_doc cmdOpOf] def cmdUsOf (w : CmdWord) : Micros := w.extractLsb' 0 32

/-- Decoding a command word: every word is a command (rule R90). -/
def decodeCmd (w : CmdWord) : Instr :=
  cmdInstr (cmdOpOf w) (cmdPortOf w) (cmdPinOf w) (cmdUsOf w)

/-- Decoding a phase code. -/
def decodePhase (c : PhaseCode) : Except DecodeError Instr :=
  match Phase.ofCode c with
  | some p => .ok p.toInstr
  | none => .error .reservedPhaseCode

/-- Decoding a word of the table. -/
def decodeWord : TableWord → Except DecodeError Instr
  | .cmd w => .ok (decodeCmd w)
  | .phase c => decodePhase c

/-! ### Bytes (log entry 8: a word's bit 8k is bit 0 of byte k) -/

/-- The `n` low bytes of a number, least significant first. -/
def bytesOfNat : Nat → Nat → List Byte
  | 0, _ => []
  | n + 1, v => BitVec.ofNat 8 v :: bytesOfNat n (v / 256)

/-- The number some bytes hold, least significant first. -/
def natOfBytes : List Byte → Nat
  | [] => 0
  | b :: bs => b.toNat + 256 * natOfBytes bs

/-- The word some bytes hold, its format told by their number. -/
def readWord (bytes : List Byte) : Except DecodeError TableWord :=
  let v := natOfBytes bytes
  if bytes.length = 11 then
    if v < 2 ^ 82 then .ok (.cmd (BitVec.ofNat 82 v)) else .error .paddingSet
  else if bytes.length = 1 then
    if v < 2 ^ 5 then .ok (.phase (BitVec.ofNat 5 v)) else .error .paddingSet
  else .error .noSuchLength

/-- The decoder, total on any bytes. -/
def decode (bytes : List Byte) : Except DecodeError Instr :=
  match readWord bytes with
  | .ok w => decodeWord w
  | .error e => .error e

/-- The instruction the decoder reads from `nbits` bits numbered as the opcode table numbers them. -/
def decodeTableWord (nbits w : Nat) : Option Instr :=
  (decode (bytesOfNat ((nbits + 7) / 8) w)).toOption

/-! ### The encoder -/

/-- The command word {op, port, pin, us} (rule R80). -/
def encodeCmd (op : OpCode) (port : PortId) (pin : PinMask) (us : Micros) : CmdWord :=
  op ++ port ++ pin ++ us

/-- The word of an instruction (rules R21, R80, R81). -/
def encodeWord : Instr → TableWord
  | .delay port pin us => .cmd (encodeCmd 0 port pin us)
  | .setout port pin us => .cmd (encodeCmd 1 port pin us)
  | .setin port pin us => .cmd (encodeCmd 2 port pin us)
  | .read port pin us => .cmd (encodeCmd 3 port pin us)
  | .idle => .phase 0
  | .dWait => .phase 1
  | .rSetout => .phase 2
  | .rDrvLow => .phase 3
  | .rLowHold => .phase 4
  | .rDrvHigh => .phase 5
  | .rHighHold => .phase 6
  | .rRelease => .phase 7
  | .rHs1 => .phase 8
  | .rHs2 => .phase 9
  | .rHs3 => .phase 10
  | .rBitLow => .phase 11
  | .rBitDly => .phase 12
  | .rBitSample => .phase 13
  | .rBitHigh => .phase 14
  | .rValidate => .phase 15
  | .rTimeout => .phase 16

/-- The bytes of a word: 11 for a command word, 1 for a phase code. -/
def TableWord.bytes : TableWord → List Byte
  | .cmd w => bytesOfNat 11 w.toNat
  | .phase c => bytesOfNat 1 c.toNat

/-- The bytes of an instruction. -/
def encode (i : Instr) : List Byte :=
  (encodeWord i).bytes

/-! ### The opcode table's rows -/

/-- A row: its mnemonic, whether it is of format CMD (else PHASE), its width, match and mask. -/
structure Row where
  mnemonic : String
  isCmd : Bool
  width : Nat
  pattern : Nat
  mask : Nat
  deriving DecidableEq, Repr

/-- A row of format CMD: only the two bits of `op` are fixed (rule R81). -/
def cmdRow (mnemonic : String) (op : Nat) : Row :=
  ⟨mnemonic, true, 82, op * 0x100000000000000000000, 0x300000000000000000000⟩

/-- A row of format PHASE: all five bits are fixed (rule R21). -/
def phaseRow (mnemonic : String) (code : Nat) : Row :=
  ⟨mnemonic, false, 5, code, 0x1f⟩

/-- The row of the opcode table an instruction belongs to. -/
def Instr.row : Instr → Row
  | .delay _ _ _ => cmdRow "DELAY" 0
  | .setout _ _ _ => cmdRow "SETOUT" 1
  | .setin _ _ _ => cmdRow "SETIN" 2
  | .read _ _ _ => cmdRow "READ" 3
  | .idle => phaseRow "IDLE" 0
  | .dWait => phaseRow "D_WAIT" 1
  | .rSetout => phaseRow "R_SETOUT" 2
  | .rDrvLow => phaseRow "R_DRV_LOW" 3
  | .rLowHold => phaseRow "R_LOW_HOLD" 4
  | .rDrvHigh => phaseRow "R_DRV_HIGH" 5
  | .rHighHold => phaseRow "R_HIGH_HOLD" 6
  | .rRelease => phaseRow "R_RELEASE" 7
  | .rHs1 => phaseRow "R_HS1" 8
  | .rHs2 => phaseRow "R_HS2" 9
  | .rHs3 => phaseRow "R_HS3" 10
  | .rBitLow => phaseRow "R_BIT_LOW" 11
  | .rBitDly => phaseRow "R_BIT_DLY" 12
  | .rBitSample => phaseRow "R_BIT_SAMPLE" 13
  | .rBitHigh => phaseRow "R_BIT_HIGH" 14
  | .rValidate => phaseRow "R_VALIDATE" 15
  | .rTimeout => phaseRow "R_TIMEOUT" 16

/-- Whether a word is one the row covers: its format, and its fixed bits. -/
def Row.covers (r : Row) : TableWord → Bool
  | .cmd w => r.isCmd && (w.toNat &&& r.mask == r.pattern)
  | .phase c => !r.isCmd && (c.toNat &&& r.mask == r.pattern)

/-! ### Script syntax (rule R92) -/

/-- The `n` low hexadecimal digits of a number, most significant first. -/
def hexDigits : Nat → Nat → List Char
  | 0, _ => []
  | n + 1, v => hexDigits n (v / 16) ++ [Nat.digitChar (v % 16)]

/-- A handle as the scripts write it, `port:pin` in hexadecimal. -/
def handleScript (port : PortId) (pin : PinMask) : List Char :=
  hexDigits 8 port.toNat ++ ':' :: hexDigits 4 pin.toNat

/-- The script line of a command; a phase is no command and has none (rule R92; log entry 12). -/
def Instr.script : Instr → Option (List Char)
  | .delay _ _ us => some ("DELAY ".toList ++ Nat.toDigits 10 us.toNat)
  | .setout port pin _ => some ("SETOUT ".toList ++ handleScript port pin)
  | .setin port pin _ => some ("SETIN ".toList ++ handleScript port pin)
  | .read port pin _ => some ("READ ".toList ++ handleScript port pin)
  | .idle => none
  | .dWait => none
  | .rSetout => none
  | .rDrvLow => none
  | .rLowHold => none
  | .rDrvHigh => none
  | .rHighHold => none
  | .rRelease => none
  | .rHs1 => none
  | .rHs2 => none
  | .rHs3 => none
  | .rBitLow => none
  | .rBitDly => none
  | .rBitSample => none
  | .rBitHigh => none
  | .rValidate => none
  | .rTimeout => none

end Sys2Proof
end

