-- ==== Sys2Proof/Machine/Fetch.lean ====
section
/-! DEFINITION. Which row of the opcode table a cycle runs (rule R7): the command on the command inputs where the phase is
IDLE and one is offered (rule R91), else the row of the phase. There is no instruction fetch in the block (rule R73). -/

namespace Sys2Proof.Machine

/-- The command word on the command inputs, `{cmd_op, cmd_port, cmd_pin, cmd_us}` (rule R80). -/
def cmdWordOf (i : Input) : CmdWord :=
  encodeCmd i.cmdOp i.cmdPort i.cmdPin i.cmdUs

/-- A command is accepted in this cycle (rule R91). -/
def State.accepts (s : State) : Bool :=
  s.phase == .idle && s.input.cmdValid

/-- The word of the opcode table this cycle runs. -/
def State.fetchWord (s : State) : TableWord :=
  if s.accepts then .cmd (cmdWordOf s.input) else .phase s.phase.code

/-- The instruction this cycle runs. -/
def State.fetch (s : State) : Instr :=
  if s.accepts then decodeCmd (cmdWordOf s.input) else s.phase.toInstr

/-- An input record with a command word on its command inputs. -/
def Input.offering (w : CmdWord) (i : Input) : Input :=
  { i with rst := false, cmdValid := true, cmdOp := cmdOpOf w, cmdPort := cmdPortOf w, cmdPin := cmdPinOf w, cmdUs := cmdUsOf w }

/-- An input record that offers no command. -/
def Input.quiet (i : Input) : Input :=
  { i with rst := false, cmdValid := false }

/-- The state whose next cycle runs a word of the table: a command word stands on the command inputs with the block in
IDLE; a phase code stands in `PHASE` with no command offered. A reserved phase code has no place in `PHASE`, and the
state stays as it is. -/
def placeWord (s : State) : TableWord → State
  | .cmd w => { s with phase := .idle, inputs := Input.offering w s.input :: s.inputs.tail }
  | .phase c =>
    match Phase.ofCode c with
    | some p => { s with phase := p, inputs := Input.quiet s.input :: s.inputs.tail }
    | none => s

end Sys2Proof.Machine
end

