-- ==== Sys2Proof/Machine/Step.lean ====
section
/-! DEFINITION. One clock cycle (rules R5, R7): reset first, else the row of the phase or of the accepted command. -/

namespace Sys2Proof.Machine

/-- `step(S, I)` (rule R7). -/
def step (s : State) : Host.Outcome State Fault Refusal :=
  if s.input.rst then .next s.resetCycle else exec s.fetch s

/-- The state whose next step runs the table's word `w` of `nbits` bits (log entry 9). Bits that are no row of the table
have no place in the block, and the state stays as it is. -/
def State.withFetchWord (s : State) (nbits w : Nat) : State :=
  match readWord (bytesOfNat ((nbits + 7) / 8) w) with
  | .ok word => placeWord s word
  | .error _ => s

end Sys2Proof.Machine
end

