-- ==== Sys2Proof/Machine/Outputs.lean ====
section
/-! DEFINITION. The output record, functions of the cycle's state alone (rules R6, R34), and what the pad shows (R117). -/

namespace Sys2Proof.Machine

/-- The output record of rule R6. An `Option` output is one the spec gives no value in some states (rules R34, R38; log
entry 10). -/
structure Output where
  cmdReady : Bool
  busy : Bool
  done : Bool
  measValid : Bool
  lineOe : Bool
  lineOut : Option Level
  status : BitVec 2
  hRaw : Option Tenths
  tRaw : Option Tenths
  selPort : PortId
  selPin : PinMask
  deriving DecidableEq, Repr

/-- The level latched for the pad, or where `LINE_DRV = X` a level drawn freely in each cycle (rules R28, R34; log entry
4). -/
def State.drivenLevel (s : State) : Level :=
  s.lineDrv.getD (Config.freePadLevel s.cycle)

/-- What the block puts on the pad: nothing when INPUT, the driven level when OUTPUT (rules R117, R118). -/
def State.padLevel (s : State) : Option Level :=
  match s.lineDir with
  | .input => none
  | .output => some s.drivenLevel

/-- `h_raw`: no value when `MEAS_VALID = 0` (rules R34, R38). -/
def State.hRawOut (s : State) : Option Tenths :=
  if s.measValid then s.hRaw else none

/-- `t_raw`: no value when `MEAS_VALID = 0` (rules R34, R38). -/
def State.tRawOut (s : State) : Option Tenths :=
  if s.measValid then s.tRaw else none

/-- The outputs of a cycle (rule R34). `line_out` is meaningless while the pad is released and has no value then. -/
def outputs (s : State) : Output where
  cmdReady := s.phase == .idle
  busy := s.phase != .idle
  done := s.done
  measValid := s.measValid
  lineOe := s.lineDir.bit
  lineOut := s.padLevel
  status := s.status.code
  hRaw := s.hRawOut
  tRaw := s.tRawOut
  selPort := s.handle.port
  selPin := s.handle.pin

end Sys2Proof.Machine
end

