-- ==== Sys2Proof/Machine/HostSide.lean ====
section
/-! DEFINITION. What the host computes from the block's outputs: the units of the measurement (rules R87, R176), the
threshold predicates (R190, R191) and the two pseudo-operations (R93, R192). None of it is part of the block (R155; log entry
12). -/

namespace Sys2Proof.Machine

/-- Humidity in percent or temperature in degrees Celsius, the exact rational `raw / 10` (rules R87, R176). -/
def unitsOf (raw : Tenths) : Rat :=
  (raw.toNat : Rat) / 10

/-- `TempAbove(t_raw)`: `t_raw > 400`, exclusive (rule R190). -/
def tempAbove (t : Tenths) : Bool :=
  decide (400 < t.toNat)

/-- `GasAbove(c)`: `c >= 300` ppm, inclusive; finite arguments only (rule R191, U10). -/
def gasAbove (c : Rat) : Bool :=
  decide (300 ≤ c)

/-- `IsAboveThreshold`: "`TempAbove(t_raw)` applied only when `meas_valid = 1`" (rule R93). -/
def isAboveThreshold (o : Output) : Option Bool :=
  if o.measValid then o.tRaw.map tempAbove else none

/-- The baseline's combined boolean, `status = Ok and TempAbove(t_raw)` (rules R93, R192). While a READ is in
progress `STATUS` can still be the previous Ok with `meas_valid = 0` and no `t_raw`; the spec computes the boolean after
the READ and gives none there, and false is the model's choice (DESIGN CHOICE, log entry 13). -/
def readAlarm (o : Output) : Bool :=
  o.status == Status.ok.code && (isAboveThreshold o).getD false

end Sys2Proof.Machine
end

