-- ==== Sys2Proof/WellFormed.lean ====
section
/-! DEFINITION. What a well-formed instruction is. Every field has the width of its type, every operation code is assigned
and no field value traps (rule R90); the one expectation left is that of rule R95, that the handle of a line operation
names a single pin. -/

namespace Sys2Proof

/-- A handle a line operation may be given: an invalid one (which has its own rules, R112 and R131), or one with a
single pin (rule R95). -/
def Handle.wellFormed (h : Handle) : Bool :=
  !h.valid || pinSingle h.pin

/-- DELAY ignores its handle (rule R82), and a phase has no operand. -/
def Instr.wellFormed : Instr → Bool
  | .delay _ _ _ => true
  | .setout port pin _ => Handle.wellFormed ⟨port, pin⟩
  | .setin port pin _ => Handle.wellFormed ⟨port, pin⟩
  | .read port pin _ => Handle.wellFormed ⟨port, pin⟩
  | .idle => true
  | .dWait => true
  | .rSetout => true
  | .rDrvLow => true
  | .rLowHold => true
  | .rDrvHigh => true
  | .rHighHold => true
  | .rRelease => true
  | .rHs1 => true
  | .rHs2 => true
  | .rHs3 => true
  | .rBitLow => true
  | .rBitDly => true
  | .rBitSample => true
  | .rBitHigh => true
  | .rValidate => true
  | .rTimeout => true

end Sys2Proof
end

