-- ==== Sys2Proof/Safety.lean ====
section
/-! DEFINITION. The terms claims are made in: the kinds of phases, the invariant of the reachable states, the conditions a
command and its environment meet, and the duties of the host that the block does not enforce. -/

namespace Sys2Proof

/-- The 15 phases of a READ in progress (rules R130 to R148). -/
def Phase.isRead (p : Phase) : Bool :=
  p != .idle && p != .dWait

/-- The phases in which the start signal is being driven: after R_SETOUT, up to R_RELEASE (rules R133 to R138). -/
def Phase.drives (p : Phase) : Bool :=
  [Phase.rDrvLow, .rLowHold, .rDrvHigh, .rHighHold, .rRelease].contains p

/-- The phases after the release of the line (rules R139 to R148). -/
def Phase.listens (p : Phase) : Bool :=
  [Phase.rHs1, .rHs2, .rHs3, .rBitLow, .rBitDly, .rBitSample, .rBitHigh, .rValidate, .rTimeout].contains p

/-- The level a wait phase waits while the line has; `none` for the other phases (rules R140 to R143, R146). -/
def Phase.held : Phase → Option Level
  | .rHs1 => some .high
  | .rHs2 => some .low
  | .rHs3 => some .high
  | .rBitLow => some .low
  | .rBitHigh => some .high
  | .idle | .dWait | .rSetout | .rDrvLow | .rLowHold | .rDrvHigh | .rHighHold | .rRelease | .rBitDly | .rBitSample
  | .rValidate | .rTimeout => none

namespace Machine

/-! ### Reachable states -/

/-- What holds in every state a run from reset reaches, and every step keeps. -/
structure Inv (s : State) : Prop where
  /-- The parameters have admissible values (rule R1). -/
  admissible : s.params.Admissible
  /-- `BITIDX` never exceeds 40 (rule R23). -/
  bits : s.bitIdx.toNat ≤ 40
  /-- Before the bit loop nothing is stored (rules R132, R170). -/
  fresh : s.phase ∈ [Phase.rSetout, .rDrvLow, .rLowHold, .rDrvHigh, .rHighHold, .rRelease, .rHs1, .rHs2, .rHs3] →
    s.bitIdx.toNat = 0 ∧ s.payload = .zero
  /-- Inside the bit loop, before the sample, there is a bit to come (rules R145, R146). -/
  more : s.phase ∈ [Phase.rBitLow, .rBitDly, .rBitSample] → s.bitIdx.toNat < 40
  /-- Validation comes after the 40th bit (rule R146). -/
  whole : s.phase = .rValidate → s.bitIdx.toNat = 40
  /-- `HANDLE` is null or the handle of the run (rules R26, R233). -/
  handle : s.handle = .null ∨ s.runHandle = some s.handle
  /-- The handle of the run is valid and names a single pin (rules R85, R95). -/
  run : ∀ h ∈ s.runHandle, h.single = true
  /-- A READ in progress has a valid handle (rules R130, R201). -/
  reading : s.phase.isRead = true → s.handle.valid = true
  /-- A READ in progress has no valid measurement (rule R130). -/
  pending : s.phase.isRead = true → s.measValid = false
  /-- The line is an output while the start signal is driven (rules R133, R138). -/
  driving : s.phase.drives = true → s.lineDir = .output
  /-- The line is an input from the release on, and the latch holds the high level (rules R136, R138, R150). -/
  listening : s.phase.listens = true → s.lineDir = .input ∧ s.lineDrv = some .high
  /-- The level is unspecified between `SetOutput` and the first drive (rule R133). -/
  undriven : s.phase = .rDrvLow → s.lineDrv = none
  /-- The start signal's low (rule R134). -/
  low : s.phase = .rLowHold ∨ s.phase = .rDrvHigh → s.lineDrv = some .low
  /-- The start signal's high (rule R136). -/
  high : s.phase = .rHighHold ∨ s.phase = .rRelease → s.lineDrv = some .high
  /-- A wait goes on only below its budget (rule R139). -/
  budget : s.phase.held.isSome = true → s.params.budgetMet s.waitCnt = false
  /-- Each delay of a READ counts down from its load (rule R107). -/
  delays : (s.phase = .rLowHold → s.delayCnt ≤ s.params.nl) ∧ (s.phase = .rHighHold → s.delayCnt ≤ s.params.nr) ∧
    (s.phase = .rBitDly → s.delayCnt ≤ s.params.ns)
  /-- `done = 1` only in IDLE (rules R30, R209). -/
  strobe : s.done = true → s.phase = .idle
  /-- A valid measurement is that of a payload whose checksum holds, and stands beside Ok (rules R31, R147, R180). -/
  measured : s.measValid = true → s.status = .ok ∧ checksumOk s.payload = true ∧
    s.hRaw = some (humidityOf s.payload) ∧ s.tRaw = some (temperatureOf s.payload)
  /-- Ok is never shown without a measurement behind it (rule R29). -/
  okMeasured : s.status = .ok → s.hRaw.isSome = true ∧ s.tRaw.isSome = true
  /-- Outside a READ, Ok stands beside a valid measurement (rule R151). -/
  outcome : s.status = .ok → s.phase.isRead = false → s.measValid = true

/-! ### Conditions on a command and on the environment -/

/-- A line command's handle the model gives a meaning: an invalid one (rules R112, R131), or one with a single pin (rule
R95) that is the handle of the run, if the run has used one (rule R233). -/
abbrev HandleOk (h : Handle) (s : State) : Prop :=
  h.valid = false ∨ (pinSingle h.pin = true ∧ (s.runHandle = none ∨ s.runHandle = some h))

/-- No reset in this cycle and the `n - 1` following ones. -/
abbrev NoResetFor (s : State) (n : Nat) : Prop :=
  ∀ k < n, (s.inputAt k).rst = false

/-- The line has a level in this cycle and the `n - 1` following ones. -/
abbrev LineHeldFor (s : State) (n : Nat) (v : Level) : Prop :=
  ∀ k < n, (s.inputAt k).lineIn = v

/-- An input record that offers a command. -/
abbrev Input.offers (i : Input) (op : OpCode) (port : PortId) (pin : PinMask) (us : Micros) : Prop :=
  i.cmdValid = true ∧ i.cmdOp = op ∧ i.cmdPort = port ∧ i.cmdPin = pin ∧ i.cmdUs = us

/-- A READ with a valid handle is accepted in this cycle (rules R91, R132). -/
abbrev ReadAccepted (s : State) : Prop :=
  s.phase = .idle ∧ s.input.rst = false ∧ s.input.cmdValid = true ∧ s.input.cmdOp = 3 ∧
    Handle.valid ⟨s.input.cmdPort, s.input.cmdPin⟩ = true

/-- The cycles within which a READ with a finite budget completes, counted from its acceptance (rule R152). -/
def readBound (p : Params) (w : Nat) : Nat :=
  p.nl + p.nr + 7 + 3 * w + 40 * (2 * w + p.ns + 2) + 1

/-- The model run for `n` cycles. -/
abbrev runFor (n : Nat) (s : State) : Host.Outcome State Fault Refusal :=
  Host.Core.run Sys2Proof.core n s

/-! ### Duties of the host -/

/-- Two READs `cycles` apart keep the sensor's re-read interval (rules R3, R239). The block does not enforce it. -/
def rereadKept (p : Params) (cycles : Nat) : Prop :=
  p.minRereadUs * p.cyclesPerTick ≤ cycles * p.tickUs

/-- A pulse `width` cycles long, counted from the first poll that reads it high, is read as 1 (rules R154, R248). -/
def pulseReadAsOne (p : Params) (width : Nat) : Bool :=
  decide (p.ns + 3 ≤ width)

end Machine

end Sys2Proof
end

