-- ==== Sys2Proof/Certificates/Slice0/Obligations.lean ====
section
/-! DEFINITION. The statements for the provers. A next state is written out as the state before with the fields the rule
writes, and with the three things every cycle does besides: the default `DONE <- 0` (rule R7; a rule that completes
writes 1), the environment's next input record, the next cycle number (log entry 1). A line command with a valid
handle writes one more field of the model's own, the handle of the run (log entry 7). So each such equation is the
result, the completion and the frame of its instruction at once. -/

open Sys2Proof Sys2Proof.Machine

/-! ### Encodings -/

/-- Every instruction, with every operand at every value, is what the decoder reads from its encoding. -/
def Obligations.EncodeThenDecodeIsIdentity : Prop :=
  ∀ i : Instr, decode (encode i) = .ok i

/-- Bytes the decoder accepts are the encoding of what it reads: each instruction has one word, and each word one
meaning. That a word's bytes have one layout, with padding bits of 0 and no other length, is the model's choice (log
entry 8). -/
def Obligations.DecodedBytesAreTheEncoding : Prop :=
  ∀ (bytes : List Byte) (i : Instr), decode bytes = .ok i → encode i = bytes

/-- The command word's fields by number, and the operation codes (rule R81; the fields are those of rule R80's table). -/
def Obligations.CommandWordReadsAsItsTable : Prop :=
  ∀ w : CmdWord,
    let port : PortId := BitVec.ofNat 32 (w.toNat / 2 ^ 48)
    let pin : PinMask := BitVec.ofNat 16 (w.toNat / 2 ^ 32)
    let us : Micros := BitVec.ofNat 32 w.toNat
    (w.toNat / 2 ^ 80 = 0 → decodeCmd w = .delay port pin us) ∧
    (w.toNat / 2 ^ 80 = 1 → decodeCmd w = .setout port pin us) ∧
    (w.toNat / 2 ^ 80 = 2 → decodeCmd w = .setin port pin us) ∧
    (w.toNat / 2 ^ 80 = 3 → decodeCmd w = .read port pin us)

/-- Words of the spec's vectors and the two ends of the phase table, decoded. -/
def Obligations.SampleWordsDecode : Prop :=
  decodeTableWord 88 0x00000000000000000001E = some (.delay 0 0 30) ∧
  decodeTableWord 88 0x140010800000200000000 = some (.setout 0x40010800 0x0002 0) ∧
  decodeTableWord 88 0x2400108000002DEADBEEF = some (.setin 0x40010800 0x0002 0xDEADBEEF) ∧
  decodeTableWord 88 0x340010800000200000000 = some (.read 0x40010800 0x0002 0) ∧
  decodeTableWord 8 0x00 = some .idle ∧
  decodeTableWord 8 0x0D = some .rBitSample ∧
  decodeTableWord 8 0x10 = some .rTimeout ∧
  decodeTableWord 8 0x11 = none

/-- The phase codes of rule R21, and the rejection by name of the codes that are none of them. -/
def Obligations.PhaseCodesAreTheTable : Prop :=
  (∀ p : Phase, decode [BitVec.ofNat 8 p.code.toNat] = .ok p.toInstr) ∧
  Phase.all.map (fun p => p.code.toNat) = List.range 17 ∧
  ∀ n, 17 ≤ n → n < 32 → decode [BitVec.ofNat 8 n] = .error .reservedPhaseCode

/-- Ignored fields have no effect (rule R82). -/
def Obligations.IgnoredFieldsHaveNoEffect : Prop :=
  ∀ (s : State) (port port' : PortId) (pin pin' : PinMask) (us us' : Micros),
    exec (.delay port pin us) s = exec (.delay port' pin' us) s ∧
    exec (.setout port pin us) s = exec (.setout port pin us') s ∧
    exec (.setin port pin us) s = exec (.setin port pin us') s ∧
    exec (.read port pin us) s = exec (.read port pin us') s

/-! ### The step -/

/-- A step runs the decoded instruction: the command whose word stands on the command inputs in IDLE with `cmd_valid`, and
otherwise the row of the phase. The step adds nothing around `exec`. -/
def Obligations.StepRunsTheDecodedInstruction : Prop :=
  ∀ (s : State) (i : Instr), s.input.rst = false →
    (s.phase = .idle → s.input.cmdValid = true →
      decode (TableWord.cmd (s.input.cmdOp ++ s.input.cmdPort ++ s.input.cmdPin ++ s.input.cmdUs)).bytes = .ok i →
      step s = exec i s) ∧
    (s.phase ≠ .idle ∨ s.input.cmdValid = false →
      decode (TableWord.phase s.phase.code).bytes = .ok i → step s = exec i s)

/-- In every cycle without reset there is an instruction to run: the word the cycle fetches decodes. -/
def Obligations.EveryCycleHasAnInstruction : Prop :=
  ∀ s : State, s.input.rst = false → ∃ i, decode s.fetchWord.bytes = .ok i ∧ step s = exec i s

/-- Reset loads every register and shows the reset outputs, whatever the phase and the other inputs (rule R230). The
model's own four fields are no registers and go on (log entries 1, 2, 7). -/
def Obligations.ResetLoadsEveryRegister : Prop :=
  ∀ s : State, s.input.rst = true →
    ∃ t, step s = .next t ∧
      t = { phase := .idle, payload := ⟨0, 0, 0, 0, 0⟩, bitIdx := 0, delayCnt := 0, waitCnt := 0, handle := ⟨0, 0⟩,
            lineDir := .input, lineDrv := none, status := .error, done := false, measValid := false, hRaw := none,
            tRaw := none, inputs := s.inputs.tail, cycle := s.cycle + 1, runHandle := s.runHandle,
            params := s.params } ∧
      outputs t = { cmdReady := true, busy := false, done := false, measValid := false, lineOe := false, lineOut := none,
                    status := 1, hRaw := none, tRaw := none, selPort := 0, selPin := 0 }

/-- The machine's state after reset. The last four conjuncts are the model's own fields (log entries 1, 2, 7). -/
def Obligations.ResetStateIsTheSpecs : Prop :=
  State.reset.phase = .idle ∧ State.reset.payload = ⟨0, 0, 0, 0, 0⟩ ∧ State.reset.bitIdx = 0 ∧
  State.reset.delayCnt = 0 ∧ State.reset.waitCnt = 0 ∧ State.reset.handle = ⟨0, 0⟩ ∧ State.reset.lineDir = .input ∧
  State.reset.lineDrv = none ∧ State.reset.status = .error ∧ State.reset.done = false ∧
  State.reset.measValid = false ∧ State.reset.hRaw = none ∧ State.reset.tRaw = none ∧
  State.reset.inputs = [] ∧ State.reset.cycle = 0 ∧ State.reset.runHandle = none ∧ State.reset.params.Admissible

/-- IDLE with no command offered: only the default part of the step applies. -/
def Obligations.IdleWithoutCommandClearsDone : Prop :=
  ∀ s : State, s.input.cmdValid = false →
    exec .idle s = .next { s with done := false, inputs := s.inputs.tail, cycle := s.cycle + 1 }

/-- A command is accepted in IDLE with `cmd_valid`, by the row IDLE and by the step alike; otherwise the command inputs
are ignored; and a running operation goes back to IDLE only by completing or by reset (rule R91). -/
def Obligations.CommandsAreTakenOnlyInIdle : Prop :=
  (∀ s : State, s.phase = .idle → s.input.rst = false → s.input.cmdValid = true →
    step s = exec (decodeCmd (s.input.cmdOp ++ s.input.cmdPort ++ s.input.cmdPin ++ s.input.cmdUs)) s ∧
    exec .idle s = step s) ∧
  (∀ (s : State) (i c : Input) (rest : List Input), c.rst = i.rst → c.lineIn = i.lineIn →
    s.phase ≠ .idle ∨ (i.cmdValid = false ∧ c.cmdValid = false) →
    step { s with inputs := c :: rest } = step { s with inputs := i :: rest }) ∧
  (∀ s t : State, s.phase ≠ .idle → step s = .next t → t.phase = .idle → s.input.rst = true ∨ t.done = true)

/-! ### The timing primitive -/

/-- DELAY, acceptance (rule R102). -/
def Obligations.DelayLoadsTheCounter : Prop :=
  ∀ (s : State) (port : PortId) (pin : PinMask) (us : Micros),
    exec (.delay port pin us) s = .next
      { s with phase := .dWait, delayCnt := us.toNat / s.params.tickUs * s.params.cyclesPerTick,
               done := false, inputs := s.inputs.tail, cycle := s.cycle + 1 }

/-- `Ncyc(us)` counts the whole ticks of the request, short by the remainder, and none for a request shorter than a tick;
every delay of the block is loaded with it (rule R2). -/
def Obligations.NcycCountsWholeTicks : Prop :=
  ∀ (p : Params) (us : Nat), 1 ≤ p.tickUs →
    (∃ k, k * p.tickUs ≤ us ∧ us < (k + 1) * p.tickUs ∧ ncyc p us = k * p.cyclesPerTick) ∧
    ncyc p us * p.tickUs + us % p.tickUs * p.cyclesPerTick = us * p.cyclesPerTick ∧
    (us < p.tickUs → ncyc p us = 0) ∧
    (∀ (s : State) (port : PortId) (pin : PinMask) (u : Micros), s.params = p →
      (∃ t, exec (.delay port pin u) s = .next t ∧ t.delayCnt = ncyc p u.toNat) ∧
      (∃ t, exec .rDrvLow s = .next t ∧ t.delayCnt = ncyc p p.tStartLowUs) ∧
      (∃ t, exec .rDrvHigh s = .next t ∧ t.delayCnt = ncyc p p.tReleaseUs) ∧
      (s.input.lineIn = .high → ∃ t, exec .rBitLow s = .next t ∧ t.delayCnt = ncyc p p.tSampleUs))

/-- D_WAIT (rule R103). -/
def Obligations.DWaitCountsDown : Prop :=
  ∀ s : State,
    (s.delayCnt = 0 → exec .dWait s = .next
      { s with phase := .idle, done := true, inputs := s.inputs.tail, cycle := s.cycle + 1 }) ∧
    (s.delayCnt ≠ 0 → exec .dWait s = .next
      { s with delayCnt := s.delayCnt - 1, done := false, inputs := s.inputs.tail, cycle := s.cycle + 1 })

/-- A DELAY accepted in this cycle shows `done` in the cycle `Ncyc(us) + 2` later and in none between, and changes
nothing but `PHASE`, `DELAY_CNT` and `DONE`. -/
def Obligations.DelayCompletesOnTime : Prop :=
  ∀ s : State, s.phase = .idle → s.input.cmdValid = true → s.input.cmdOp = 0 →
    NoResetFor s (ncyc s.params s.input.cmdUs.toNat + 2) →
    (∀ k, 0 < k → k < ncyc s.params s.input.cmdUs.toNat + 2 →
      ∃ t, runFor k s = .next t ∧ t.phase = .dWait ∧ t.done = false) ∧
    runFor (ncyc s.params s.input.cmdUs.toNat + 2) s = .next
      { s with delayCnt := 0, done := true, inputs := s.inputs.drop (ncyc s.params s.input.cmdUs.toNat + 2),
               cycle := s.cycle + (ncyc s.params s.input.cmdUs.toNat + 2) }

/-! ### The line-direction controller -/

/-- SETOUT (rule R114). -/
def Obligations.SetoutMakesTheLineAnOutput : Prop :=
  ∀ (s : State) (port : PortId) (pin : PinMask) (us : Micros), HandleOk ⟨port, pin⟩ s →
    (port ≠ 0 ∧ pin ≠ 0 → exec (.setout port pin us) s = .next
      { s with phase := .idle, lineDir := .output, lineDrv := none, handle := ⟨port, pin⟩, runHandle := some ⟨port, pin⟩,
               done := true, inputs := s.inputs.tail, cycle := s.cycle + 1 }) ∧
    (port = 0 ∨ pin = 0 → exec (.setout port pin us) s = .next
      { s with phase := .idle, done := true, inputs := s.inputs.tail, cycle := s.cycle + 1 })

/-- SETIN (rule R115). -/
def Obligations.SetinMakesTheLineAnInput : Prop :=
  ∀ (s : State) (port : PortId) (pin : PinMask) (us : Micros), HandleOk ⟨port, pin⟩ s →
    (port ≠ 0 ∧ pin ≠ 0 → exec (.setin port pin us) s = .next
      { s with phase := .idle, lineDir := .input, handle := ⟨port, pin⟩, runHandle := some ⟨port, pin⟩,
               done := true, inputs := s.inputs.tail, cycle := s.cycle + 1 }) ∧
    (port = 0 ∨ pin = 0 → exec (.setin port pin us) s = .next
      { s with phase := .idle, done := true, inputs := s.inputs.tail, cycle := s.cycle + 1 })

/-- The direction primitives do nothing with a null port or a zero pin (rule R112). -/
def Obligations.InvalidHandleWritesNothing : Prop :=
  ∀ (s : State) (port : PortId) (pin : PinMask), port = 0 ∨ pin = 0 →
    s.setOutput ⟨port, pin⟩ = s ∧ s.setInput ⟨port, pin⟩ = s ∧ s.latchHandle ⟨port, pin⟩ = s ∧
    ∀ us : Micros,
      exec (.setout port pin us) s = exec (.setin port pin us) s ∧
      ∃ t, exec (.setout port pin us) s = .next t ∧ t.status = s.status ∧ t.handle = s.handle ∧
        t.lineDir = s.lineDir ∧ t.lineDrv = s.lineDrv ∧ t.payload = s.payload ∧ t.bitIdx = s.bitIdx ∧
        t.delayCnt = s.delayCnt ∧ t.waitCnt = s.waitCnt ∧ t.measValid = s.measValid ∧ t.hRaw = s.hRaw ∧
        t.tRaw = s.tRaw

/-- Both direction primitives are idempotent, in any state of the line. -/
def Obligations.DirectionPrimitivesAreIdempotent : Prop :=
  ∀ (s : State) (h : Handle),
    (s.setOutput h).setOutput h = s.setOutput h ∧ (s.setInput h).setInput h = s.setInput h

/-- A valid handle whose mask has several bits set is refused by name by the three line commands, and ignored by DELAY.
That a null port is not refused whatever its mask is the model's reading (log entry 6). -/
def Obligations.SeveralPinsAreRefused : Prop :=
  ∀ (s : State) (port : PortId) (pin : PinMask) (us : Micros) (i j : Nat), port ≠ 0 → i < 16 → j < 16 → i ≠ j →
    pin.getLsbD i = true → pin.getLsbD j = true →
    exec (.setout port pin us) s = .refused .severalPins ∧ exec (.setin port pin us) s = .refused .severalPins ∧
    exec (.read port pin us) s = .refused .severalPins ∧ ∃ t, exec (.delay port pin us) s = .next t

/-- A run has one valid handle: a line command with another is refused by name, whatever its mask; the first accepted one
sets the run's handle, nothing else does, and no step changes it, a reset included. That a run goes on over a reset is
the model's reading (log entry 7). -/
def Obligations.ChangedHandleIsRefused : Prop :=
  (∀ (s : State) (g : Handle) (port : PortId) (pin : PinMask) (us : Micros), port ≠ 0 → pin ≠ 0 →
    s.runHandle = some g → g ≠ ⟨port, pin⟩ →
    let r : Refusal := if pinSingle pin = true then .handleChanged else .severalPins
    exec (.setout port pin us) s = .refused r ∧ exec (.setin port pin us) s = .refused r ∧
    exec (.read port pin us) s = .refused r) ∧
  (∀ (s t : State) (g : Handle), s.runHandle = some g → step s = .next t → t.runHandle = some g) ∧
  ∀ (s t : State) (g : Handle), s.runHandle = none → step s = .next t →
    (t.runHandle = some g ↔
      s.input.rst = false ∧ s.phase = .idle ∧ s.input.cmdValid = true ∧ s.input.cmdOp ≠ 0 ∧ g.valid = true ∧
        g = ⟨s.input.cmdPort, s.input.cmdPin⟩)

/-! ### READ, acceptance and start signal -/

/-- READ, acceptance: with an invalid handle it completes at once with the failure status, never Ok (rule R131), with a
valid one it starts with a fresh payload, and from then on only reset keeps it from completing (rule R132);
`MEAS_VALID` is cleared by both (rule R130). -/
def Obligations.ReadIsAccepted : Prop :=
  (∀ (s : State) (port : PortId) (pin : PinMask) (us : Micros), HandleOk ⟨port, pin⟩ s →
    (port ≠ 0 ∧ pin ≠ 0 → exec (.read port pin us) s = .next
      { s with phase := .rSetout, measValid := false, handle := ⟨port, pin⟩, runHandle := some ⟨port, pin⟩,
               payload := ⟨0, 0, 0, 0, 0⟩, bitIdx := 0, done := false, inputs := s.inputs.tail, cycle := s.cycle + 1 }) ∧
    (port = 0 ∨ pin = 0 → exec (.read port pin us) s = .next
      { s with phase := .idle, measValid := false, status := s.params.invalidHandleStatus, done := true,
               inputs := s.inputs.tail, cycle := s.cycle + 1 }) ∧
    (s.params.Admissible → s.params.invalidHandleStatus = .error ∨ s.params.invalidHandleStatus = .timeout)) ∧
  ∀ s t : State, s.phase.isRead = true → s.input.rst = false → step s = .next t →
    t.phase.isRead = true ∨ (t.phase = .idle ∧ t.done = true)

/-- R_SETOUT (rule R133). -/
def Obligations.RSetoutTurnsTheLineOutward : Prop :=
  ∀ s : State,
    (s.handle.port ≠ 0 ∧ s.handle.pin ≠ 0 → exec .rSetout s = .next
      { s with phase := .rDrvLow, lineDir := .output, lineDrv := none, done := false, inputs := s.inputs.tail,
               cycle := s.cycle + 1 }) ∧
    (s.handle.port = 0 ∨ s.handle.pin = 0 → exec .rSetout s = .next
      { s with phase := .rDrvLow, done := false, inputs := s.inputs.tail, cycle := s.cycle + 1 })

/-- R_DRV_LOW (rule R134). -/
def Obligations.RDrvLowDrivesLow : Prop :=
  ∀ s : State, exec .rDrvLow s = .next
    { s with phase := .rLowHold, lineDrv := some .low, delayCnt := ncyc s.params s.params.tStartLowUs, done := false,
             inputs := s.inputs.tail, cycle := s.cycle + 1 }

/-- R_LOW_HOLD (rule R135): its body, and the number of cycles it lasts. -/
def Obligations.RLowHoldCountsDown : Prop :=
  (∀ s : State,
    (s.delayCnt = 0 → exec .rLowHold s = .next
      { s with phase := .rDrvHigh, done := false, inputs := s.inputs.tail, cycle := s.cycle + 1 }) ∧
    (s.delayCnt ≠ 0 → exec .rLowHold s = .next
      { s with delayCnt := s.delayCnt - 1, done := false, inputs := s.inputs.tail, cycle := s.cycle + 1 })) ∧
  ∀ s : State, s.phase = .rLowHold → s.delayCnt = ncyc s.params s.params.tStartLowUs →
    NoResetFor s (s.delayCnt + 1) →
    (∀ k < s.delayCnt + 1, ∃ t, runFor k s = .next t ∧ t.phase = .rLowHold) ∧
    ∃ t, runFor (s.delayCnt + 1) s = .next t ∧ t.phase = .rDrvHigh

/-- R_DRV_HIGH (rule R136). -/
def Obligations.RDrvHighDrivesHigh : Prop :=
  ∀ s : State, exec .rDrvHigh s = .next
    { s with phase := .rHighHold, lineDrv := some .high, delayCnt := ncyc s.params s.params.tReleaseUs, done := false,
             inputs := s.inputs.tail, cycle := s.cycle + 1 }

/-- R_HIGH_HOLD (rule R137): its body, and the number of cycles it lasts. -/
def Obligations.RHighHoldCountsDown : Prop :=
  (∀ s : State,
    (s.delayCnt = 0 → exec .rHighHold s = .next
      { s with phase := .rRelease, done := false, inputs := s.inputs.tail, cycle := s.cycle + 1 }) ∧
    (s.delayCnt ≠ 0 → exec .rHighHold s = .next
      { s with delayCnt := s.delayCnt - 1, done := false, inputs := s.inputs.tail, cycle := s.cycle + 1 })) ∧
  ∀ s : State, s.phase = .rHighHold → s.delayCnt = ncyc s.params s.params.tReleaseUs →
    NoResetFor s (s.delayCnt + 1) →
    (∀ k < s.delayCnt + 1, ∃ t, runFor k s = .next t ∧ t.phase = .rHighHold) ∧
    ∃ t, runFor (s.delayCnt + 1) s = .next t ∧ t.phase = .rRelease

/-- R_RELEASE (rule R138). -/
def Obligations.RReleaseTurnsTheLineInward : Prop :=
  ∀ s : State,
    (s.handle.port ≠ 0 ∧ s.handle.pin ≠ 0 → exec .rRelease s = .next
      { s with phase := .rHs1, lineDir := .input, waitCnt := 0, done := false, inputs := s.inputs.tail,
               cycle := s.cycle + 1 }) ∧
    (s.handle.port = 0 ∨ s.handle.pin = 0 → exec .rRelease s = .next
      { s with phase := .rHs1, waitCnt := 0, done := false, inputs := s.inputs.tail, cycle := s.cycle + 1 })

/-! ### READ, waits and bits -/

/-- The handshake waits: while high, while low, while high (rules R140, R141, R142), each a `BoundedWait`: the level
first, then the budget, a finite one or `INF`. -/
def Obligations.HandshakeWaitsAreBounded : Prop :=
  ∀ (s : State) (i : Instr) (held : Level) (next : Phase),
    (i, held, next) ∈ [(Instr.rHs1, Level.high, Phase.rHs2), (.rHs2, .low, .rHs3), (.rHs3, .high, .rBitLow)] →
    (s.input.lineIn ≠ held → exec i s = .next
      { s with phase := next, waitCnt := 0, done := false, inputs := s.inputs.tail, cycle := s.cycle + 1 }) ∧
    (s.input.lineIn = held → (∃ w, s.params.waitBudget = some w ∧ w ≤ s.waitCnt + 1) → exec i s = .next
      { s with phase := .rTimeout, done := false, inputs := s.inputs.tail, cycle := s.cycle + 1 }) ∧
    (s.input.lineIn = held → (∀ w, s.params.waitBudget = some w → s.waitCnt + 1 < w) → exec i s = .next
      { s with waitCnt := s.waitCnt + 1, done := false, inputs := s.inputs.tail, cycle := s.cycle + 1 })

/-- Any of the five waits, entered with `WAIT_CNT` at 0 and the line held: with a finite budget it goes to R_TIMEOUT after
exactly that many polls, and not before; a poll that reads the other level ends it, however many went before, the
last permitted one included; without a budget only such a poll ends it (rule R139). -/
def Obligations.WaitsEndAtTheirBudget : Prop :=
  ∀ (s : State) (v : Level) (n : Nat), s.phase.held = some v → s.waitCnt = 0 → LineHeldFor s n v →
    (s.params.waitBudget = some n → 1 ≤ n → NoResetFor s n →
      (∀ k < n, ∃ t, runFor k s = .next t ∧ t.phase = s.phase ∧ t.waitCnt = k) ∧
      ∃ t, runFor n s = .next t ∧ t.phase = .rTimeout) ∧
    ((∀ w, s.params.waitBudget = some w → n < w) → NoResetFor s (n + 1) →
      (∃ t, runFor n s = .next t ∧ t.phase = s.phase ∧ t.waitCnt = n) ∧
      ((s.inputAt n).lineIn ≠ v →
        ∃ t, runFor (n + 1) s = .next t ∧ t.phase ≠ s.phase ∧ t.phase ≠ .rTimeout ∧ t.waitCnt = 0))

/-- R_BIT_LOW (rule R143). -/
def Obligations.RBitLowWaitsForTheHighPulse : Prop :=
  ∀ s : State,
    (s.input.lineIn = .high → exec .rBitLow s = .next
      { s with phase := .rBitDly, waitCnt := 0, delayCnt := ncyc s.params s.params.tSampleUs, done := false,
               inputs := s.inputs.tail, cycle := s.cycle + 1 }) ∧
    (s.input.lineIn = .low → (∃ w, s.params.waitBudget = some w ∧ w ≤ s.waitCnt + 1) → exec .rBitLow s = .next
      { s with phase := .rTimeout, done := false, inputs := s.inputs.tail, cycle := s.cycle + 1 }) ∧
    (s.input.lineIn = .low → (∀ w, s.params.waitBudget = some w → s.waitCnt + 1 < w) → exec .rBitLow s = .next
      { s with waitCnt := s.waitCnt + 1, done := false, inputs := s.inputs.tail, cycle := s.cycle + 1 })

/-- R_BIT_DLY (rule R144): its body, the line not looked at, and the number of cycles it lasts. -/
def Obligations.RBitDlyCountsBlindly : Prop :=
  (∀ s : State,
    (s.delayCnt = 0 → exec .rBitDly s = .next
      { s with phase := .rBitSample, done := false, inputs := s.inputs.tail, cycle := s.cycle + 1 }) ∧
    (s.delayCnt ≠ 0 → exec .rBitDly s = .next
      { s with delayCnt := s.delayCnt - 1, done := false, inputs := s.inputs.tail, cycle := s.cycle + 1 })) ∧
  ∀ s : State, s.phase = .rBitDly → s.delayCnt = ncyc s.params s.params.tSampleUs → NoResetFor s (s.delayCnt + 1) →
    (∀ k < s.delayCnt + 1, ∃ t, runFor k s = .next t ∧ t.phase = .rBitDly) ∧
    ∃ t, runFor (s.delayCnt + 1) s = .next t ∧ t.phase = .rBitSample

/-- R_BIT_SAMPLE (rule R145), for the forty bits of the frame. -/
def Obligations.RBitSampleStoresTheLevel : Prop :=
  ∀ s : State, s.bitIdx.toNat < 40 → exec .rBitSample s = .next
    { s with phase := .rBitHigh, payload := assembleBit s.bitIdx.toNat (decide (s.input.lineIn = .high)) s.payload,
             bitIdx := s.bitIdx + 1, waitCnt := 0, done := false, inputs := s.inputs.tail, cycle := s.cycle + 1 }

/-- R_BIT_SAMPLE with `BITIDX` at 40 or more, which no reachable state has, stops by name. This is the model's choice (log
entry 5): rule R171 says only that it is never asked for. -/
def Obligations.SamplePastTheFrameStops : Prop :=
  ∀ s : State, 40 ≤ s.bitIdx.toNat → exec .rBitSample s = .fault .payloadIndexOutOfRange

/-- R_BIT_HIGH (rule R146). -/
def Obligations.RBitHighWaitsForTheEndOfBit : Prop :=
  ∀ s : State,
    (s.input.lineIn = .low → s.bitIdx.toNat = 40 → exec .rBitHigh s = .next
      { s with phase := .rValidate, waitCnt := 0, done := false, inputs := s.inputs.tail, cycle := s.cycle + 1 }) ∧
    (s.input.lineIn = .low → s.bitIdx.toNat ≠ 40 → exec .rBitHigh s = .next
      { s with phase := .rBitLow, waitCnt := 0, done := false, inputs := s.inputs.tail, cycle := s.cycle + 1 }) ∧
    (s.input.lineIn = .high → (∃ w, s.params.waitBudget = some w ∧ w ≤ s.waitCnt + 1) → exec .rBitHigh s = .next
      { s with phase := .rTimeout, done := false, inputs := s.inputs.tail, cycle := s.cycle + 1 }) ∧
    (s.input.lineIn = .high → (∀ w, s.params.waitBudget = some w → s.waitCnt + 1 < w) → exec .rBitHigh s = .next
      { s with waitCnt := s.waitCnt + 1, done := false, inputs := s.inputs.tail, cycle := s.cycle + 1 })

/-- R_VALIDATE (rule R147). -/
def Obligations.RValidatePublishesOrFails : Prop :=
  ∀ s : State,
    (checksumOk s.payload = true → exec .rValidate s = .next
      { s with phase := .idle, status := .ok, measValid := true,
               hRaw := some (BitVec.ofNat 16 (s.payload.b0.toNat * 256 + s.payload.b1.toNat)),
               tRaw := some (BitVec.ofNat 16 (s.payload.b2.toNat * 256 + s.payload.b3.toNat)), done := true,
               inputs := s.inputs.tail, cycle := s.cycle + 1 }) ∧
    (checksumOk s.payload = false → exec .rValidate s = .next
      { s with phase := .idle, status := .error, done := true, inputs := s.inputs.tail, cycle := s.cycle + 1 })

/-- R_TIMEOUT (rule R148). -/
def Obligations.RTimeoutReportsTimeout : Prop :=
  ∀ s : State,
    (s.handle.port ≠ 0 ∧ s.handle.pin ≠ 0 → exec .rTimeout s = .next
      { s with phase := .idle, lineDir := .input, status := .timeout, done := true, inputs := s.inputs.tail,
               cycle := s.cycle + 1 }) ∧
    (s.handle.port = 0 ∨ s.handle.pin = 0 → exec .rTimeout s = .next
      { s with phase := .idle, status := .timeout, done := true, inputs := s.inputs.tail, cycle := s.cycle + 1 })

/-! ### The payload -/

/-- `AssembleBit` writes one bit of the payload and keeps the other thirty-nine (rule R171). -/
def Obligations.AssembleBitWritesOneBit : Prop :=
  ∀ (b : Payload) (k : Nat) (v : Bool), k < 40 →
    ((assembleBit k v b).byte (k / 8)).getLsbD (7 - k % 8) = v ∧
    ∀ j i, j < 5 → i < 8 → (j, i) ≠ (k / 8, 7 - k % 8) →
      ((assembleBit k v b).byte j).getLsbD i = (b.byte j).getLsbD i

/-- Forty samples written one by one are forty samples shifted in: the direct form and the shift-register form of the
payload assembler agree on every frame. -/
def Obligations.ShiftRegisterFormAgrees : Prop :=
  ∀ bits : List Bool, bits.length = 40 →
    bits.zipIdx.foldl (fun b x => assembleBit x.2 x.1 b) Payload.zero = Payload.ofFrame (bits.foldl shiftIn 0)

/-- The checksum holds exactly when the fifth byte is the truncated sum of the first four (rules R173, R174). -/
def Obligations.ChecksumIsTheTruncatedSum : Prop :=
  ∀ b : Payload,
    (checksum8 b).toNat = (b.b0.toNat + b.b1.toNat + b.b2.toNat + b.b3.toNat) % 256 ∧
    (checksumOk b = true ↔ b.b4.toNat = (b.b0.toNat + b.b1.toNat + b.b2.toNat + b.b3.toNat) % 256)

/-- The checksum cannot see the order of the first four bytes, and the zero frame passes it. -/
def Obligations.ChecksumCannotSeeOrder : Prop :=
  (∀ (l m : List Byte) (a b c d a' b' c' d' e : Byte), l = [a, b, c, d] → m = [a', b', c', d'] → l.Perm m →
    checksumOk ⟨a, b, c, d, e⟩ = checksumOk ⟨a', b', c', d', e⟩) ∧
  checksumOk Payload.zero = true

/-- The bytes of a frame and the two big-endian quantities it carries (rule R65). -/
def Obligations.FrameIsBigEndian : Prop :=
  ∀ f : Frame,
    (Payload.ofFrame f).b0.toNat = f.toNat / 2 ^ 32 ∧ (Payload.ofFrame f).b1.toNat = f.toNat / 2 ^ 24 % 2 ^ 8 ∧
    (Payload.ofFrame f).b2.toNat = f.toNat / 2 ^ 16 % 2 ^ 8 ∧ (Payload.ofFrame f).b3.toNat = f.toNat / 2 ^ 8 % 2 ^ 8 ∧
    (Payload.ofFrame f).b4.toNat = f.toNat % 2 ^ 8 ∧
    humidityOf (Payload.ofFrame f) = f.extractLsb' 24 16 ∧ temperatureOf (Payload.ofFrame f) = f.extractLsb' 8 16 ∧
    (∀ b : Payload, (humidityOf b).toNat = b.b0.toNat * 256 + b.b1.toNat ∧
      (temperatureOf b).toNat = b.b2.toNat * 256 + b.b3.toNat)

/-- Encoding a measurement and decoding it gives it back, with a checksum that holds. -/
def Obligations.MeasurementRoundTrips : Prop :=
  ∀ h t : Tenths, checksumOk (encodeMeasurement h t) = true ∧ decodeMeasurement (encodeMeasurement h t) = (h, t)

/-! ### The whole machine -/

/-- The invariant holds after reset. -/
def Obligations.ResetMeetsTheInvariant : Prop :=
  Inv State.reset

/-- Every step keeps the invariant, and the parameters of the run. -/
def Obligations.EveryStepKeepsTheInvariant : Prop :=
  ∀ s t : State, Inv s → step s = .next t → Inv t ∧ t.params = s.params

/-- Under the invariant no step faults, and a step is refused only where a line command is accepted whose handle the spec
gives no meaning (log entries 5, 6, 7). -/
def Obligations.StepsGoOnUnderTheInvariant : Prop :=
  ∀ s : State, Inv s →
    (s.input.rst = true ∨ s.phase ≠ .idle ∨ s.input.cmdValid = false ∨ s.input.cmdOp = 0 ∨
      HandleOk ⟨s.input.cmdPort, s.input.cmdPin⟩ s → ∃ t, step s = .next t) ∧
    (∀ r : Fault, step s ≠ .fault r)

/-- `STATUS` is written only when a READ completes, in the cycle that sets `DONE`, and it holds the status of that READ
(rule R29). -/
def Obligations.StatusIsWrittenOnlyByReadCompletion : Prop :=
  State.reset.status = .error ∧
  (∀ st : Status, (outputs { State.reset with status := st }).status =
    match st with | .ok => 0 | .error => 1 | .timeout => 2) ∧
  ∀ s t : State, s.input.rst = false → step s = .next t →
    ((t.status = s.status) ∨
      (t.done = true ∧
        ((s.phase = .idle ∧ s.input.cmdValid = true ∧ s.input.cmdOp = 3 ∧
            Handle.valid ⟨s.input.cmdPort, s.input.cmdPin⟩ = false ∧ t.status = s.params.invalidHandleStatus) ∨
          (s.phase = .rValidate ∧ t.status = if checksumOk s.payload then .ok else .error) ∨
          (s.phase = .rTimeout ∧ t.status = .timeout))))

/-- `H_RAW` and `T_RAW` are written only in R_VALIDATE and only on success, and have no value after reset (rule R32). -/
def Obligations.MeasurementIsWrittenOnlyOnSuccess : Prop :=
  State.reset.hRaw = none ∧ State.reset.tRaw = none ∧
  ∀ s t : State, s.input.rst = false → step s = .next t →
    if s.phase = .rValidate ∧ checksumOk s.payload = true then
      (∃ h, t.hRaw = some h ∧ h.toNat = s.payload.b0.toNat * 256 + s.payload.b1.toNat) ∧
      (∃ h, t.tRaw = some h ∧ h.toNat = s.payload.b2.toNat * 256 + s.payload.b3.toNat)
    else t.hRaw = s.hRaw ∧ t.tRaw = s.tRaw

/-- `MEAS_VALID` is set only in R_VALIDATE, together with `STATUS <- Ok` and the two measurement registers, and cleared at
every READ's acceptance; in the states a run reaches, it is set exactly when the last READ ended Ok and none is in
progress, and then the two registers hold that READ's measurement (rule R31). -/
def Obligations.MeasValidFollowsTheLastRead : Prop :=
  State.reset.measValid = false ∧
  ∀ s t : State, s.input.rst = false → step s = .next t →
    t.measValid =
      (if s.phase = .rValidate ∧ checksumOk s.payload = true then true
      else if s.phase = .idle ∧ s.input.cmdValid = true ∧ s.input.cmdOp = 3 then false
      else s.measValid) ∧
    (s.phase = .rValidate → checksumOk s.payload = true →
      t.status = .ok ∧ t.hRaw = some (humidityOf s.payload) ∧ t.tRaw = some (temperatureOf s.payload)) ∧
    (Inv s →
      (t.measValid = true ↔ t.status = .ok ∧ t.phase.isRead = false) ∧
      (t.measValid = true → t.hRaw = some (humidityOf t.payload) ∧ t.tRaw = some (temperatureOf t.payload)))

/-- `DONE` is a pulse: set in exactly the cycles in which an operation completes, and read by nothing in the block (rule
R30). -/
def Obligations.DoneIsACompletionPulse : Prop :=
  State.reset.done = false ∧ (∀ (s : State) (d : Bool), step { s with done := d } = step s) ∧
  ∀ s t : State, s.input.rst = false → step s = .next t →
    (t.done = true ↔
      (s.phase = .idle ∧ s.input.cmdValid = true ∧ (s.input.cmdOp = 1 ∨ s.input.cmdOp = 2)) ∨
      (s.phase = .dWait ∧ s.delayCnt = 0) ∨
      (s.phase = .idle ∧ s.input.cmdValid = true ∧ s.input.cmdOp = 3 ∧
        Handle.valid ⟨s.input.cmdPort, s.input.cmdPin⟩ = false) ∨
      s.phase = .rValidate ∨ s.phase = .rTimeout)

/-- Only SETOUT and R_SETOUT make the line an output, and only SETIN, R_RELEASE, R_TIMEOUT and reset make it an input; the
latch loses its value in the first two and in reset alone, and takes one in R_DRV_LOW and R_DRV_HIGH alone. -/
def Obligations.PadChangesOnlyByThePrimitives : Prop :=
  ∀ s t : State, step s = .next t →
    (t.lineDir ≠ s.lineDir →
    (t.lineDir = .output ∧ s.input.rst = false ∧
      (s.phase = .rSetout ∨ (s.phase = .idle ∧ s.input.cmdValid = true ∧ s.input.cmdOp = 1))) ∨
    (t.lineDir = .input ∧
      (s.input.rst = true ∨ s.phase = .rRelease ∨ s.phase = .rTimeout ∨
        (s.phase = .idle ∧ s.input.cmdValid = true ∧ s.input.cmdOp = 2)))) ∧
    (t.lineDrv ≠ s.lineDrv →
      (t.lineDrv = none ∧ (s.input.rst = true ∨ s.phase = .rSetout ∨
        (s.phase = .idle ∧ s.input.cmdValid = true ∧ s.input.cmdOp = 1))) ∨
      (t.lineDrv = some .low ∧ s.phase = .rDrvLow) ∨ (t.lineDrv = some .high ∧ s.phase = .rDrvHigh))

/-- The outputs as functions of the state (rules R34, R38). That `line_out` has no value while the pad is released, where
the rule calls it meaningless, is the model's choice (log entry 10). -/
def Obligations.OutputsAreFunctionsOfTheState : Prop :=
  ∀ s : State,
    ((outputs s).busy = true ↔ s.phase ≠ .idle) ∧ ((outputs s).cmdReady = true ↔ s.phase = .idle) ∧
    (outputs s).done = s.done ∧ (outputs s).status = s.status.code ∧ (outputs s).measValid = s.measValid ∧
    (s.measValid = true → (outputs s).hRaw = s.hRaw ∧ (outputs s).tRaw = s.tRaw) ∧
    (s.measValid = false → (outputs s).hRaw = none ∧ (outputs s).tRaw = none) ∧
    ((outputs s).lineOe = true ↔ s.lineDir = .output) ∧
    (s.lineDir = .output → ∀ v, s.lineDrv = some v → (outputs s).lineOut = some v) ∧
    (s.lineDir = .output → s.lineDrv = none → ∃ v, (outputs s).lineOut = some v) ∧
    (s.lineDir = .input → (outputs s).lineOut = none) ∧
    (outputs s).selPort = s.handle.port ∧ (outputs s).selPin = s.handle.pin

/-- The transitions of the phases, and no others. -/
def Obligations.PhasesFollowTheTable : Prop :=
  ∀ s t : State, s.input.rst = false → step s = .next t →
    (s.phase, t.phase) ∈
      [(Phase.idle, Phase.idle), (.idle, .dWait), (.idle, .rSetout), (.dWait, .dWait), (.dWait, .idle),
       (.rSetout, .rDrvLow), (.rDrvLow, .rLowHold), (.rLowHold, .rLowHold), (.rLowHold, .rDrvHigh),
       (.rDrvHigh, .rHighHold), (.rHighHold, .rHighHold), (.rHighHold, .rRelease), (.rRelease, .rHs1),
       (.rHs1, .rHs1), (.rHs1, .rHs2), (.rHs1, .rTimeout), (.rHs2, .rHs2), (.rHs2, .rHs3), (.rHs2, .rTimeout),
       (.rHs3, .rHs3), (.rHs3, .rBitLow), (.rHs3, .rTimeout), (.rBitLow, .rBitLow), (.rBitLow, .rBitDly),
       (.rBitLow, .rTimeout), (.rBitDly, .rBitDly), (.rBitDly, .rBitSample), (.rBitSample, .rBitHigh),
       (.rBitHigh, .rBitHigh), (.rBitHigh, .rBitLow), (.rBitHigh, .rValidate), (.rBitHigh, .rTimeout),
       (.rValidate, .idle), (.rTimeout, .idle)]

/-- With a finite budget every READ with a valid handle completes, whatever the line does, within the bound; it is busy
until then; and it ends in one of the three outcomes, with the line an input and the latch high. -/
def Obligations.ReadCompletesWithinItsBound : Prop :=
  ∀ (s : State) (w : Nat), s.params.Admissible → s.params.waitBudget = some w → ReadAccepted s →
    HandleOk ⟨s.input.cmdPort, s.input.cmdPin⟩ s → NoResetFor s (readBound s.params w) →
    ∃ n t, 0 < n ∧ n ≤ readBound s.params w ∧ runFor n s = .next t ∧ t.done = true ∧ t.phase = .idle ∧
      (∀ k, 0 < k → k < n → ∃ u, runFor k s = .next u ∧ u.phase.isRead = true ∧ u.done = false) ∧
      t.lineDir = .input ∧ t.lineDrv = some .high ∧
      ((t.status = .ok ∧ t.measValid = true ∧ t.bitIdx.toNat = 40 ∧ checksumOk t.payload = true ∧
          t.hRaw = some (humidityOf t.payload) ∧ t.tRaw = some (temperatureOf t.payload)) ∨
        (t.status = .error ∧ t.measValid = false ∧ t.bitIdx.toNat = 40 ∧ checksumOk t.payload = false ∧
          t.hRaw = s.hRaw ∧ t.tRaw = s.tRaw) ∨
        (t.status = .timeout ∧ t.measValid = false ∧ t.hRaw = s.hRaw ∧ t.tRaw = s.tRaw))

/-- Without a budget a wait whose exit level never comes never ends: the block stays busy in the same phase for as long
as the line is held, and a reset recovers it (rule R242). -/
def Obligations.UnboundedWaitHangs : Prop :=
  ∀ (s : State) (n : Nat) (v : Level), s.params.waitBudget = none → s.phase.held = some v → NoResetFor s n →
    LineHeldFor s n v →
    ∃ t, runFor n s = .next t ∧ t.phase = s.phase ∧ (outputs t).busy = true ∧
      ((s.inputAt n).rst = true → ∃ u, runFor (n + 1) s = .next u ∧ (outputs u).busy = false)

/-- A bit is the level of the line `NS + 2` cycles after the poll of R_BIT_LOW that first reads high, whatever the line
does in between. -/
def Obligations.BitIsSampledAfterTheDelay : Prop :=
  ∀ s : State, s.phase = .rBitLow → s.input.lineIn = .high → s.bitIdx.toNat < 40 → NoResetFor s (s.params.ns + 3) →
    ∃ t, runFor (s.params.ns + 3) s = .next t ∧ t.phase = .rBitHigh ∧ t.bitIdx = s.bitIdx + 1 ∧
      t.payload = assembleBit s.bitIdx.toNat (s.inputAt (s.params.ns + 2)).lineIn.bit s.payload

/-- A high pulse that is seen by the poll of this cycle, lasts `width` cycles and is followed by low is read as 1 exactly
when it is at least `NS + 3` cycles wide. -/
def Obligations.PulseWidthDecidesTheBit : Prop :=
  ∀ (s : State) (width : Nat), s.phase = .rBitLow → s.bitIdx.toNat < 40 → 1 ≤ width → LineHeldFor s width .high →
    (∀ k, width ≤ k → k < s.params.ns + 3 → (s.inputAt k).lineIn = .low) → NoResetFor s (s.params.ns + 3) →
    ∃ t, runFor (s.params.ns + 3) s = .next t ∧
      t.payload = assembleBit s.bitIdx.toNat (pulseReadAsOne s.params width) s.payload

/-- The host's temperature predicate, exclusive at 40.0, and applied to a valid measurement only (rule R190). -/
def Obligations.TempAboveIsStrictlyAboveForty : Prop :=
  (∀ t : Tenths, (tempAbove t = true ↔ t.toNat > 400) ∧ (tempAbove t = true ↔ unitsOf t > 40)) ∧
  ∀ (o : Output) (b : Bool), isAboveThreshold o = some b →
    o.measValid = true ∧ ∃ t, o.tRaw = some t ∧ b = tempAbove t

/-- The host's combined boolean is false for every READ that did not end Ok, and otherwise the temperature predicate. That
it is false in the middle of a READ, with `STATUS` still the previous Ok, is the model's choice (log entry 13). -/
def Obligations.ReadAlarmConflatesStatusAndThreshold : Prop :=
  ∀ s : State, Inv s →
    (readAlarm (outputs s) = true ↔
      s.status = .ok ∧ s.measValid = true ∧ ∃ t, s.tRaw = some t ∧ tempAbove t = true)
end

