-- ==== Sys2Proof/Laws/Bytes.lean ====
section
/-! SUPPORT. The bytes of a word and the fields of a command word. -/

namespace Sys2Proof

@[simp] theorem bytesOfNat_length (n v : Nat) : (bytesOfNat n v).length = n := by
  induction n generalizing v with
  | zero => rfl
  | succ n ih => simp [bytesOfNat, ih]

/-- Reading back `n` bytes of a number gives it modulo `256 ^ n`. -/
theorem natOfBytes_bytesOfNat (n v : Nat) : natOfBytes (bytesOfNat n v) = v % 256 ^ n := by
  induction n generalizing v with
  | zero => simp [bytesOfNat, natOfBytes, Nat.mod_one]
  | succ n ih => simp [bytesOfNat, natOfBytes, ih, Nat.pow_succ, Nat.mul_comm (256 ^ n) 256, Nat.mod_mul]

/-- Bytes are those of the number they hold. -/
theorem bytesOfNat_natOfBytes (bs : List Byte) : bytesOfNat bs.length (natOfBytes bs) = bs := by
  induction bs with
  | nil => rfl
  | cons b bs ih =>
    have hb := b.isLt
    have hd : (b.toNat + 256 * natOfBytes bs) / 256 = natOfBytes bs := by omega
    have hm : BitVec.ofNat 8 (b.toNat + 256 * natOfBytes bs) = b := by
      apply BitVec.eq_of_toNat_eq
      simp only [BitVec.toNat_ofNat]
      omega
    simp [bytesOfNat, natOfBytes, hd, hm, ih]

/-- A phase is that of its code. -/
@[simp] theorem Phase.ofCode_code (p : Phase) : Phase.ofCode p.code = some p := by
  cases p <;> decide

/-- The command word as a number. -/
theorem encodeCmd_toNat (op : OpCode) (port : PortId) (pin : PinMask) (us : Micros) :
    (encodeCmd op port pin us).toNat = ((op.toNat * 2 ^ 32 + port.toNat) * 2 ^ 16 + pin.toNat) * 2 ^ 32 + us.toNat := by
  have app : ∀ {m n : Nat} (x : BitVec m) (y : BitVec n), (x ++ y).toNat = x.toNat * 2 ^ n + y.toNat := by
    intro m n x y
    rw [BitVec.toNat_append, Nat.shiftLeft_eq, Nat.mul_comm, Nat.two_pow_add_eq_or_of_lt y.isLt]
  change (op ++ port ++ pin ++ us : BitVec (2 + 32 + 16 + 32)).toNat = _
  rw [app, app, app]

/-- The fields of a command word as numbers. -/
theorem cmdFields_toNat (w : CmdWord) :
    (cmdOpOf w).toNat = w.toNat / 2 ^ 80 ∧ (cmdPortOf w).toNat = w.toNat / 2 ^ 48 % 2 ^ 32 ∧
    (cmdPinOf w).toNat = w.toNat / 2 ^ 32 % 2 ^ 16 ∧ (cmdUsOf w).toNat = w.toNat % 2 ^ 32 := by
  have := w.isLt
  simp only [cmdOpOf, cmdPortOf, cmdPinOf, cmdUsOf, BitVec.extractLsb'_toNat, Nat.shiftRight_eq_div_pow]
  refine ⟨Nat.mod_eq_of_lt ?_, trivial, trivial, by simp⟩
  omega

/-- The fields of an encoded command word are the ones it was made of. -/
theorem cmdFields_encodeCmd (op : OpCode) (port : PortId) (pin : PinMask) (us : Micros) :
    cmdOpOf (encodeCmd op port pin us) = op ∧ cmdPortOf (encodeCmd op port pin us) = port ∧
    cmdPinOf (encodeCmd op port pin us) = pin ∧ cmdUsOf (encodeCmd op port pin us) = us := by
  obtain ⟨h1, h2, h3, h4⟩ := cmdFields_toNat (encodeCmd op port pin us)
  rw [encodeCmd_toNat] at h1 h2 h3 h4
  have := op.isLt; have := port.isLt; have := pin.isLt; have := us.isLt
  refine ⟨BitVec.eq_of_toNat_eq ?_, BitVec.eq_of_toNat_eq ?_, BitVec.eq_of_toNat_eq ?_, BitVec.eq_of_toNat_eq ?_⟩ <;>
    omega

/-- The fields of a command word make it up. -/
theorem encodeCmd_fields (w : CmdWord) : encodeCmd (cmdOpOf w) (cmdPortOf w) (cmdPinOf w) (cmdUsOf w) = w := by
  obtain ⟨h1, h2, h3, h4⟩ := cmdFields_toNat w
  apply BitVec.eq_of_toNat_eq
  rw [encodeCmd_toNat, h1, h2, h3, h4]
  omega

end Sys2Proof
end

