-- ==== Sys2Proof/Laws/State.lean ====
section
/-! SUPPORT. One lemma per field per update of the state, so that no proof unfolds a record update. -/

namespace Sys2Proof.Machine

variable (s : State)

/-! `clearDone` -/

@[simp] theorem State.clearDone_phase : s.clearDone.phase = s.phase := rfl
@[simp] theorem State.clearDone_payload : s.clearDone.payload = s.payload := rfl
@[simp] theorem State.clearDone_bitIdx : s.clearDone.bitIdx = s.bitIdx := rfl
@[simp] theorem State.clearDone_delayCnt : s.clearDone.delayCnt = s.delayCnt := rfl
@[simp] theorem State.clearDone_waitCnt : s.clearDone.waitCnt = s.waitCnt := rfl
@[simp] theorem State.clearDone_handle : s.clearDone.handle = s.handle := rfl
@[simp] theorem State.clearDone_runHandle : s.clearDone.runHandle = s.runHandle := rfl
@[simp] theorem State.clearDone_lineDir : s.clearDone.lineDir = s.lineDir := rfl
@[simp] theorem State.clearDone_lineDrv : s.clearDone.lineDrv = s.lineDrv := rfl
@[simp] theorem State.clearDone_status : s.clearDone.status = s.status := rfl
@[simp] theorem State.clearDone_done : s.clearDone.done = false := rfl
@[simp] theorem State.clearDone_measValid : s.clearDone.measValid = s.measValid := rfl
@[simp] theorem State.clearDone_hRaw : s.clearDone.hRaw = s.hRaw := rfl
@[simp] theorem State.clearDone_tRaw : s.clearDone.tRaw = s.tRaw := rfl
@[simp] theorem State.clearDone_inputs : s.clearDone.inputs = s.inputs := rfl
@[simp] theorem State.clearDone_cycle : s.clearDone.cycle = s.cycle := rfl
@[simp] theorem State.clearDone_params : s.clearDone.params = s.params := rfl

/-! `clearMeasValid` -/

@[simp] theorem State.clearMeasValid_phase : s.clearMeasValid.phase = s.phase := rfl
@[simp] theorem State.clearMeasValid_payload : s.clearMeasValid.payload = s.payload := rfl
@[simp] theorem State.clearMeasValid_bitIdx : s.clearMeasValid.bitIdx = s.bitIdx := rfl
@[simp] theorem State.clearMeasValid_delayCnt : s.clearMeasValid.delayCnt = s.delayCnt := rfl
@[simp] theorem State.clearMeasValid_waitCnt : s.clearMeasValid.waitCnt = s.waitCnt := rfl
@[simp] theorem State.clearMeasValid_handle : s.clearMeasValid.handle = s.handle := rfl
@[simp] theorem State.clearMeasValid_runHandle : s.clearMeasValid.runHandle = s.runHandle := rfl
@[simp] theorem State.clearMeasValid_lineDir : s.clearMeasValid.lineDir = s.lineDir := rfl
@[simp] theorem State.clearMeasValid_lineDrv : s.clearMeasValid.lineDrv = s.lineDrv := rfl
@[simp] theorem State.clearMeasValid_status : s.clearMeasValid.status = s.status := rfl
@[simp] theorem State.clearMeasValid_done : s.clearMeasValid.done = s.done := rfl
@[simp] theorem State.clearMeasValid_measValid : s.clearMeasValid.measValid = false := rfl
@[simp] theorem State.clearMeasValid_hRaw : s.clearMeasValid.hRaw = s.hRaw := rfl
@[simp] theorem State.clearMeasValid_tRaw : s.clearMeasValid.tRaw = s.tRaw := rfl
@[simp] theorem State.clearMeasValid_inputs : s.clearMeasValid.inputs = s.inputs := rfl
@[simp] theorem State.clearMeasValid_cycle : s.clearMeasValid.cycle = s.cycle := rfl
@[simp] theorem State.clearMeasValid_params : s.clearMeasValid.params = s.params := rfl

/-! `complete` -/

@[simp] theorem State.complete_phase : s.complete.phase = .idle := rfl
@[simp] theorem State.complete_payload : s.complete.payload = s.payload := rfl
@[simp] theorem State.complete_bitIdx : s.complete.bitIdx = s.bitIdx := rfl
@[simp] theorem State.complete_delayCnt : s.complete.delayCnt = s.delayCnt := rfl
@[simp] theorem State.complete_waitCnt : s.complete.waitCnt = s.waitCnt := rfl
@[simp] theorem State.complete_handle : s.complete.handle = s.handle := rfl
@[simp] theorem State.complete_runHandle : s.complete.runHandle = s.runHandle := rfl
@[simp] theorem State.complete_lineDir : s.complete.lineDir = s.lineDir := rfl
@[simp] theorem State.complete_lineDrv : s.complete.lineDrv = s.lineDrv := rfl
@[simp] theorem State.complete_status : s.complete.status = s.status := rfl
@[simp] theorem State.complete_done : s.complete.done = true := rfl
@[simp] theorem State.complete_measValid : s.complete.measValid = s.measValid := rfl
@[simp] theorem State.complete_hRaw : s.complete.hRaw = s.hRaw := rfl
@[simp] theorem State.complete_tRaw : s.complete.tRaw = s.tRaw := rfl
@[simp] theorem State.complete_inputs : s.complete.inputs = s.inputs := rfl
@[simp] theorem State.complete_cycle : s.complete.cycle = s.cycle := rfl
@[simp] theorem State.complete_params : s.complete.params = s.params := rfl

/-! `completeRead` -/

@[simp] theorem State.completeRead_phase (st : Status) : (s.completeRead st).phase = .idle := rfl
@[simp] theorem State.completeRead_payload (st : Status) : (s.completeRead st).payload = s.payload := rfl
@[simp] theorem State.completeRead_bitIdx (st : Status) : (s.completeRead st).bitIdx = s.bitIdx := rfl
@[simp] theorem State.completeRead_delayCnt (st : Status) : (s.completeRead st).delayCnt = s.delayCnt := rfl
@[simp] theorem State.completeRead_waitCnt (st : Status) : (s.completeRead st).waitCnt = s.waitCnt := rfl
@[simp] theorem State.completeRead_handle (st : Status) : (s.completeRead st).handle = s.handle := rfl
@[simp] theorem State.completeRead_runHandle (st : Status) : (s.completeRead st).runHandle = s.runHandle := rfl
@[simp] theorem State.completeRead_lineDir (st : Status) : (s.completeRead st).lineDir = s.lineDir := rfl
@[simp] theorem State.completeRead_lineDrv (st : Status) : (s.completeRead st).lineDrv = s.lineDrv := rfl
@[simp] theorem State.completeRead_status (st : Status) : (s.completeRead st).status = st := rfl
@[simp] theorem State.completeRead_done (st : Status) : (s.completeRead st).done = true := rfl
@[simp] theorem State.completeRead_measValid (st : Status) : (s.completeRead st).measValid = s.measValid := rfl
@[simp] theorem State.completeRead_hRaw (st : Status) : (s.completeRead st).hRaw = s.hRaw := rfl
@[simp] theorem State.completeRead_tRaw (st : Status) : (s.completeRead st).tRaw = s.tRaw := rfl
@[simp] theorem State.completeRead_inputs (st : Status) : (s.completeRead st).inputs = s.inputs := rfl
@[simp] theorem State.completeRead_cycle (st : Status) : (s.completeRead st).cycle = s.cycle := rfl
@[simp] theorem State.completeRead_params (st : Status) : (s.completeRead st).params = s.params := rfl

/-! `publish` -/

@[simp] theorem State.publish_phase (b : Payload) : (s.publish b).phase = s.phase := rfl
@[simp] theorem State.publish_payload (b : Payload) : (s.publish b).payload = s.payload := rfl
@[simp] theorem State.publish_bitIdx (b : Payload) : (s.publish b).bitIdx = s.bitIdx := rfl
@[simp] theorem State.publish_delayCnt (b : Payload) : (s.publish b).delayCnt = s.delayCnt := rfl
@[simp] theorem State.publish_waitCnt (b : Payload) : (s.publish b).waitCnt = s.waitCnt := rfl
@[simp] theorem State.publish_handle (b : Payload) : (s.publish b).handle = s.handle := rfl
@[simp] theorem State.publish_runHandle (b : Payload) : (s.publish b).runHandle = s.runHandle := rfl
@[simp] theorem State.publish_lineDir (b : Payload) : (s.publish b).lineDir = s.lineDir := rfl
@[simp] theorem State.publish_lineDrv (b : Payload) : (s.publish b).lineDrv = s.lineDrv := rfl
@[simp] theorem State.publish_status (b : Payload) : (s.publish b).status = s.status := rfl
@[simp] theorem State.publish_done (b : Payload) : (s.publish b).done = s.done := rfl
@[simp] theorem State.publish_measValid (b : Payload) : (s.publish b).measValid = true := rfl
@[simp] theorem State.publish_hRaw (b : Payload) : (s.publish b).hRaw = some (humidityOf b) := rfl
@[simp] theorem State.publish_tRaw (b : Payload) : (s.publish b).tRaw = some (temperatureOf b) := rfl
@[simp] theorem State.publish_inputs (b : Payload) : (s.publish b).inputs = s.inputs := rfl
@[simp] theorem State.publish_cycle (b : Payload) : (s.publish b).cycle = s.cycle := rfl
@[simp] theorem State.publish_params (b : Payload) : (s.publish b).params = s.params := rfl

/-! `nextCycle` -/

@[simp] theorem State.nextCycle_phase : s.nextCycle.phase = s.phase := rfl
@[simp] theorem State.nextCycle_payload : s.nextCycle.payload = s.payload := rfl
@[simp] theorem State.nextCycle_bitIdx : s.nextCycle.bitIdx = s.bitIdx := rfl
@[simp] theorem State.nextCycle_delayCnt : s.nextCycle.delayCnt = s.delayCnt := rfl
@[simp] theorem State.nextCycle_waitCnt : s.nextCycle.waitCnt = s.waitCnt := rfl
@[simp] theorem State.nextCycle_handle : s.nextCycle.handle = s.handle := rfl
@[simp] theorem State.nextCycle_runHandle : s.nextCycle.runHandle = s.runHandle := rfl
@[simp] theorem State.nextCycle_lineDir : s.nextCycle.lineDir = s.lineDir := rfl
@[simp] theorem State.nextCycle_lineDrv : s.nextCycle.lineDrv = s.lineDrv := rfl
@[simp] theorem State.nextCycle_status : s.nextCycle.status = s.status := rfl
@[simp] theorem State.nextCycle_done : s.nextCycle.done = false := rfl
@[simp] theorem State.nextCycle_measValid : s.nextCycle.measValid = s.measValid := rfl
@[simp] theorem State.nextCycle_hRaw : s.nextCycle.hRaw = s.hRaw := rfl
@[simp] theorem State.nextCycle_tRaw : s.nextCycle.tRaw = s.tRaw := rfl
@[simp] theorem State.nextCycle_inputs : s.nextCycle.inputs = s.inputs.tail := rfl
@[simp] theorem State.nextCycle_cycle : s.nextCycle.cycle = s.cycle + 1 := rfl
@[simp] theorem State.nextCycle_params : s.nextCycle.params = s.params := rfl

/-! `goto` -/

@[simp] theorem State.goto_phase (p : Phase) : (s.goto p).phase = p := rfl
@[simp] theorem State.goto_payload (p : Phase) : (s.goto p).payload = s.payload := rfl
@[simp] theorem State.goto_bitIdx (p : Phase) : (s.goto p).bitIdx = s.bitIdx := rfl
@[simp] theorem State.goto_delayCnt (p : Phase) : (s.goto p).delayCnt = s.delayCnt := rfl
@[simp] theorem State.goto_waitCnt (p : Phase) : (s.goto p).waitCnt = s.waitCnt := rfl
@[simp] theorem State.goto_handle (p : Phase) : (s.goto p).handle = s.handle := rfl
@[simp] theorem State.goto_runHandle (p : Phase) : (s.goto p).runHandle = s.runHandle := rfl
@[simp] theorem State.goto_lineDir (p : Phase) : (s.goto p).lineDir = s.lineDir := rfl
@[simp] theorem State.goto_lineDrv (p : Phase) : (s.goto p).lineDrv = s.lineDrv := rfl
@[simp] theorem State.goto_status (p : Phase) : (s.goto p).status = s.status := rfl
@[simp] theorem State.goto_done (p : Phase) : (s.goto p).done = s.done := rfl
@[simp] theorem State.goto_measValid (p : Phase) : (s.goto p).measValid = s.measValid := rfl
@[simp] theorem State.goto_hRaw (p : Phase) : (s.goto p).hRaw = s.hRaw := rfl
@[simp] theorem State.goto_tRaw (p : Phase) : (s.goto p).tRaw = s.tRaw := rfl
@[simp] theorem State.goto_inputs (p : Phase) : (s.goto p).inputs = s.inputs := rfl
@[simp] theorem State.goto_cycle (p : Phase) : (s.goto p).cycle = s.cycle := rfl
@[simp] theorem State.goto_params (p : Phase) : (s.goto p).params = s.params := rfl

/-! `setOutput` -/

@[simp] theorem State.setOutput_phase (h : Handle) : (s.setOutput h).phase = s.phase := by
  unfold State.setOutput; split <;> rfl
@[simp] theorem State.setOutput_payload (h : Handle) : (s.setOutput h).payload = s.payload := by
  unfold State.setOutput; split <;> rfl
@[simp] theorem State.setOutput_bitIdx (h : Handle) : (s.setOutput h).bitIdx = s.bitIdx := by
  unfold State.setOutput; split <;> rfl
@[simp] theorem State.setOutput_delayCnt (h : Handle) : (s.setOutput h).delayCnt = s.delayCnt := by
  unfold State.setOutput; split <;> rfl
@[simp] theorem State.setOutput_waitCnt (h : Handle) : (s.setOutput h).waitCnt = s.waitCnt := by
  unfold State.setOutput; split <;> rfl
@[simp] theorem State.setOutput_handle (h : Handle) : (s.setOutput h).handle = s.handle := by
  unfold State.setOutput; split <;> rfl
@[simp] theorem State.setOutput_runHandle (h : Handle) : (s.setOutput h).runHandle = s.runHandle := by
  unfold State.setOutput; split <;> rfl
@[simp] theorem State.setOutput_lineDir (h : Handle) : (s.setOutput h).lineDir = if h.valid then .output else s.lineDir := by
  unfold State.setOutput; split <;> rfl
@[simp] theorem State.setOutput_lineDrv (h : Handle) : (s.setOutput h).lineDrv = if h.valid then none else s.lineDrv := by
  unfold State.setOutput; split <;> rfl
@[simp] theorem State.setOutput_status (h : Handle) : (s.setOutput h).status = s.status := by
  unfold State.setOutput; split <;> rfl
@[simp] theorem State.setOutput_done (h : Handle) : (s.setOutput h).done = s.done := by
  unfold State.setOutput; split <;> rfl
@[simp] theorem State.setOutput_measValid (h : Handle) : (s.setOutput h).measValid = s.measValid := by
  unfold State.setOutput; split <;> rfl
@[simp] theorem State.setOutput_hRaw (h : Handle) : (s.setOutput h).hRaw = s.hRaw := by
  unfold State.setOutput; split <;> rfl
@[simp] theorem State.setOutput_tRaw (h : Handle) : (s.setOutput h).tRaw = s.tRaw := by
  unfold State.setOutput; split <;> rfl
@[simp] theorem State.setOutput_inputs (h : Handle) : (s.setOutput h).inputs = s.inputs := by
  unfold State.setOutput; split <;> rfl
@[simp] theorem State.setOutput_cycle (h : Handle) : (s.setOutput h).cycle = s.cycle := by
  unfold State.setOutput; split <;> rfl
@[simp] theorem State.setOutput_params (h : Handle) : (s.setOutput h).params = s.params := by
  unfold State.setOutput; split <;> rfl

/-! `setInput` -/

@[simp] theorem State.setInput_phase (h : Handle) : (s.setInput h).phase = s.phase := by
  unfold State.setInput; split <;> rfl
@[simp] theorem State.setInput_payload (h : Handle) : (s.setInput h).payload = s.payload := by
  unfold State.setInput; split <;> rfl
@[simp] theorem State.setInput_bitIdx (h : Handle) : (s.setInput h).bitIdx = s.bitIdx := by
  unfold State.setInput; split <;> rfl
@[simp] theorem State.setInput_delayCnt (h : Handle) : (s.setInput h).delayCnt = s.delayCnt := by
  unfold State.setInput; split <;> rfl
@[simp] theorem State.setInput_waitCnt (h : Handle) : (s.setInput h).waitCnt = s.waitCnt := by
  unfold State.setInput; split <;> rfl
@[simp] theorem State.setInput_handle (h : Handle) : (s.setInput h).handle = s.handle := by
  unfold State.setInput; split <;> rfl
@[simp] theorem State.setInput_runHandle (h : Handle) : (s.setInput h).runHandle = s.runHandle := by
  unfold State.setInput; split <;> rfl
@[simp] theorem State.setInput_lineDir (h : Handle) : (s.setInput h).lineDir = if h.valid then .input else s.lineDir := by
  unfold State.setInput; split <;> rfl
@[simp] theorem State.setInput_lineDrv (h : Handle) : (s.setInput h).lineDrv = s.lineDrv := by
  unfold State.setInput; split <;> rfl
@[simp] theorem State.setInput_status (h : Handle) : (s.setInput h).status = s.status := by
  unfold State.setInput; split <;> rfl
@[simp] theorem State.setInput_done (h : Handle) : (s.setInput h).done = s.done := by
  unfold State.setInput; split <;> rfl
@[simp] theorem State.setInput_measValid (h : Handle) : (s.setInput h).measValid = s.measValid := by
  unfold State.setInput; split <;> rfl
@[simp] theorem State.setInput_hRaw (h : Handle) : (s.setInput h).hRaw = s.hRaw := by
  unfold State.setInput; split <;> rfl
@[simp] theorem State.setInput_tRaw (h : Handle) : (s.setInput h).tRaw = s.tRaw := by
  unfold State.setInput; split <;> rfl
@[simp] theorem State.setInput_inputs (h : Handle) : (s.setInput h).inputs = s.inputs := by
  unfold State.setInput; split <;> rfl
@[simp] theorem State.setInput_cycle (h : Handle) : (s.setInput h).cycle = s.cycle := by
  unfold State.setInput; split <;> rfl
@[simp] theorem State.setInput_params (h : Handle) : (s.setInput h).params = s.params := by
  unfold State.setInput; split <;> rfl

/-! `driveLine` -/

@[simp] theorem State.driveLine_phase (v : Level) : (s.driveLine v).phase = s.phase := rfl
@[simp] theorem State.driveLine_payload (v : Level) : (s.driveLine v).payload = s.payload := rfl
@[simp] theorem State.driveLine_bitIdx (v : Level) : (s.driveLine v).bitIdx = s.bitIdx := rfl
@[simp] theorem State.driveLine_delayCnt (v : Level) : (s.driveLine v).delayCnt = s.delayCnt := rfl
@[simp] theorem State.driveLine_waitCnt (v : Level) : (s.driveLine v).waitCnt = s.waitCnt := rfl
@[simp] theorem State.driveLine_handle (v : Level) : (s.driveLine v).handle = s.handle := rfl
@[simp] theorem State.driveLine_runHandle (v : Level) : (s.driveLine v).runHandle = s.runHandle := rfl
@[simp] theorem State.driveLine_lineDir (v : Level) : (s.driveLine v).lineDir = s.lineDir := rfl
@[simp] theorem State.driveLine_lineDrv (v : Level) : (s.driveLine v).lineDrv = some v := rfl
@[simp] theorem State.driveLine_status (v : Level) : (s.driveLine v).status = s.status := rfl
@[simp] theorem State.driveLine_done (v : Level) : (s.driveLine v).done = s.done := rfl
@[simp] theorem State.driveLine_measValid (v : Level) : (s.driveLine v).measValid = s.measValid := rfl
@[simp] theorem State.driveLine_hRaw (v : Level) : (s.driveLine v).hRaw = s.hRaw := rfl
@[simp] theorem State.driveLine_tRaw (v : Level) : (s.driveLine v).tRaw = s.tRaw := rfl
@[simp] theorem State.driveLine_inputs (v : Level) : (s.driveLine v).inputs = s.inputs := rfl
@[simp] theorem State.driveLine_cycle (v : Level) : (s.driveLine v).cycle = s.cycle := rfl
@[simp] theorem State.driveLine_params (v : Level) : (s.driveLine v).params = s.params := rfl

/-! `latchHandle` -/

@[simp] theorem State.latchHandle_phase (h : Handle) : (s.latchHandle h).phase = s.phase := by
  unfold State.latchHandle; split <;> rfl
@[simp] theorem State.latchHandle_payload (h : Handle) : (s.latchHandle h).payload = s.payload := by
  unfold State.latchHandle; split <;> rfl
@[simp] theorem State.latchHandle_bitIdx (h : Handle) : (s.latchHandle h).bitIdx = s.bitIdx := by
  unfold State.latchHandle; split <;> rfl
@[simp] theorem State.latchHandle_delayCnt (h : Handle) : (s.latchHandle h).delayCnt = s.delayCnt := by
  unfold State.latchHandle; split <;> rfl
@[simp] theorem State.latchHandle_waitCnt (h : Handle) : (s.latchHandle h).waitCnt = s.waitCnt := by
  unfold State.latchHandle; split <;> rfl
@[simp] theorem State.latchHandle_handle (h : Handle) : (s.latchHandle h).handle = if h.valid then h else s.handle := by
  unfold State.latchHandle; split <;> rfl
@[simp] theorem State.latchHandle_runHandle (h : Handle) : (s.latchHandle h).runHandle = if h.valid then some h else s.runHandle := by
  unfold State.latchHandle; split <;> rfl
@[simp] theorem State.latchHandle_lineDir (h : Handle) : (s.latchHandle h).lineDir = s.lineDir := by
  unfold State.latchHandle; split <;> rfl
@[simp] theorem State.latchHandle_lineDrv (h : Handle) : (s.latchHandle h).lineDrv = s.lineDrv := by
  unfold State.latchHandle; split <;> rfl
@[simp] theorem State.latchHandle_status (h : Handle) : (s.latchHandle h).status = s.status := by
  unfold State.latchHandle; split <;> rfl
@[simp] theorem State.latchHandle_done (h : Handle) : (s.latchHandle h).done = s.done := by
  unfold State.latchHandle; split <;> rfl
@[simp] theorem State.latchHandle_measValid (h : Handle) : (s.latchHandle h).measValid = s.measValid := by
  unfold State.latchHandle; split <;> rfl
@[simp] theorem State.latchHandle_hRaw (h : Handle) : (s.latchHandle h).hRaw = s.hRaw := by
  unfold State.latchHandle; split <;> rfl
@[simp] theorem State.latchHandle_tRaw (h : Handle) : (s.latchHandle h).tRaw = s.tRaw := by
  unfold State.latchHandle; split <;> rfl
@[simp] theorem State.latchHandle_inputs (h : Handle) : (s.latchHandle h).inputs = s.inputs := by
  unfold State.latchHandle; split <;> rfl
@[simp] theorem State.latchHandle_cycle (h : Handle) : (s.latchHandle h).cycle = s.cycle := by
  unfold State.latchHandle; split <;> rfl
@[simp] theorem State.latchHandle_params (h : Handle) : (s.latchHandle h).params = s.params := by
  unfold State.latchHandle; split <;> rfl

/-! `loadDelay` -/

@[simp] theorem State.loadDelay_phase (n : Nat) : (s.loadDelay n).phase = s.phase := rfl
@[simp] theorem State.loadDelay_payload (n : Nat) : (s.loadDelay n).payload = s.payload := rfl
@[simp] theorem State.loadDelay_bitIdx (n : Nat) : (s.loadDelay n).bitIdx = s.bitIdx := rfl
@[simp] theorem State.loadDelay_delayCnt (n : Nat) : (s.loadDelay n).delayCnt = n := rfl
@[simp] theorem State.loadDelay_waitCnt (n : Nat) : (s.loadDelay n).waitCnt = s.waitCnt := rfl
@[simp] theorem State.loadDelay_handle (n : Nat) : (s.loadDelay n).handle = s.handle := rfl
@[simp] theorem State.loadDelay_runHandle (n : Nat) : (s.loadDelay n).runHandle = s.runHandle := rfl
@[simp] theorem State.loadDelay_lineDir (n : Nat) : (s.loadDelay n).lineDir = s.lineDir := rfl
@[simp] theorem State.loadDelay_lineDrv (n : Nat) : (s.loadDelay n).lineDrv = s.lineDrv := rfl
@[simp] theorem State.loadDelay_status (n : Nat) : (s.loadDelay n).status = s.status := rfl
@[simp] theorem State.loadDelay_done (n : Nat) : (s.loadDelay n).done = s.done := rfl
@[simp] theorem State.loadDelay_measValid (n : Nat) : (s.loadDelay n).measValid = s.measValid := rfl
@[simp] theorem State.loadDelay_hRaw (n : Nat) : (s.loadDelay n).hRaw = s.hRaw := rfl
@[simp] theorem State.loadDelay_tRaw (n : Nat) : (s.loadDelay n).tRaw = s.tRaw := rfl
@[simp] theorem State.loadDelay_inputs (n : Nat) : (s.loadDelay n).inputs = s.inputs := rfl
@[simp] theorem State.loadDelay_cycle (n : Nat) : (s.loadDelay n).cycle = s.cycle := rfl
@[simp] theorem State.loadDelay_params (n : Nat) : (s.loadDelay n).params = s.params := rfl

/-! `clearWait` -/

@[simp] theorem State.clearWait_phase : s.clearWait.phase = s.phase := rfl
@[simp] theorem State.clearWait_payload : s.clearWait.payload = s.payload := rfl
@[simp] theorem State.clearWait_bitIdx : s.clearWait.bitIdx = s.bitIdx := rfl
@[simp] theorem State.clearWait_delayCnt : s.clearWait.delayCnt = s.delayCnt := rfl
@[simp] theorem State.clearWait_waitCnt : s.clearWait.waitCnt = 0 := rfl
@[simp] theorem State.clearWait_handle : s.clearWait.handle = s.handle := rfl
@[simp] theorem State.clearWait_runHandle : s.clearWait.runHandle = s.runHandle := rfl
@[simp] theorem State.clearWait_lineDir : s.clearWait.lineDir = s.lineDir := rfl
@[simp] theorem State.clearWait_lineDrv : s.clearWait.lineDrv = s.lineDrv := rfl
@[simp] theorem State.clearWait_status : s.clearWait.status = s.status := rfl
@[simp] theorem State.clearWait_done : s.clearWait.done = s.done := rfl
@[simp] theorem State.clearWait_measValid : s.clearWait.measValid = s.measValid := rfl
@[simp] theorem State.clearWait_hRaw : s.clearWait.hRaw = s.hRaw := rfl
@[simp] theorem State.clearWait_tRaw : s.clearWait.tRaw = s.tRaw := rfl
@[simp] theorem State.clearWait_inputs : s.clearWait.inputs = s.inputs := rfl
@[simp] theorem State.clearWait_cycle : s.clearWait.cycle = s.cycle := rfl
@[simp] theorem State.clearWait_params : s.clearWait.params = s.params := rfl

/-! `freshPayload` -/

@[simp] theorem State.freshPayload_phase : s.freshPayload.phase = s.phase := rfl
@[simp] theorem State.freshPayload_payload : s.freshPayload.payload = .zero := rfl
@[simp] theorem State.freshPayload_bitIdx : s.freshPayload.bitIdx = 0 := rfl
@[simp] theorem State.freshPayload_delayCnt : s.freshPayload.delayCnt = s.delayCnt := rfl
@[simp] theorem State.freshPayload_waitCnt : s.freshPayload.waitCnt = s.waitCnt := rfl
@[simp] theorem State.freshPayload_handle : s.freshPayload.handle = s.handle := rfl
@[simp] theorem State.freshPayload_runHandle : s.freshPayload.runHandle = s.runHandle := rfl
@[simp] theorem State.freshPayload_lineDir : s.freshPayload.lineDir = s.lineDir := rfl
@[simp] theorem State.freshPayload_lineDrv : s.freshPayload.lineDrv = s.lineDrv := rfl
@[simp] theorem State.freshPayload_status : s.freshPayload.status = s.status := rfl
@[simp] theorem State.freshPayload_done : s.freshPayload.done = s.done := rfl
@[simp] theorem State.freshPayload_measValid : s.freshPayload.measValid = s.measValid := rfl
@[simp] theorem State.freshPayload_hRaw : s.freshPayload.hRaw = s.hRaw := rfl
@[simp] theorem State.freshPayload_tRaw : s.freshPayload.tRaw = s.tRaw := rfl
@[simp] theorem State.freshPayload_inputs : s.freshPayload.inputs = s.inputs := rfl
@[simp] theorem State.freshPayload_cycle : s.freshPayload.cycle = s.cycle := rfl
@[simp] theorem State.freshPayload_params : s.freshPayload.params = s.params := rfl

/-! `storeBit` -/

@[simp] theorem State.storeBit_phase (v : Level) : (s.storeBit v).phase = s.phase := rfl
@[simp] theorem State.storeBit_payload (v : Level) : (s.storeBit v).payload = assembleBit s.bitIdx.toNat v.bit s.payload := rfl
@[simp] theorem State.storeBit_bitIdx (v : Level) : (s.storeBit v).bitIdx = s.bitIdx + 1 := rfl
@[simp] theorem State.storeBit_delayCnt (v : Level) : (s.storeBit v).delayCnt = s.delayCnt := rfl
@[simp] theorem State.storeBit_waitCnt (v : Level) : (s.storeBit v).waitCnt = s.waitCnt := rfl
@[simp] theorem State.storeBit_handle (v : Level) : (s.storeBit v).handle = s.handle := rfl
@[simp] theorem State.storeBit_runHandle (v : Level) : (s.storeBit v).runHandle = s.runHandle := rfl
@[simp] theorem State.storeBit_lineDir (v : Level) : (s.storeBit v).lineDir = s.lineDir := rfl
@[simp] theorem State.storeBit_lineDrv (v : Level) : (s.storeBit v).lineDrv = s.lineDrv := rfl
@[simp] theorem State.storeBit_status (v : Level) : (s.storeBit v).status = s.status := rfl
@[simp] theorem State.storeBit_done (v : Level) : (s.storeBit v).done = s.done := rfl
@[simp] theorem State.storeBit_measValid (v : Level) : (s.storeBit v).measValid = s.measValid := rfl
@[simp] theorem State.storeBit_hRaw (v : Level) : (s.storeBit v).hRaw = s.hRaw := rfl
@[simp] theorem State.storeBit_tRaw (v : Level) : (s.storeBit v).tRaw = s.tRaw := rfl
@[simp] theorem State.storeBit_inputs (v : Level) : (s.storeBit v).inputs = s.inputs := rfl
@[simp] theorem State.storeBit_cycle (v : Level) : (s.storeBit v).cycle = s.cycle := rfl
@[simp] theorem State.storeBit_params (v : Level) : (s.storeBit v).params = s.params := rfl

end Sys2Proof.Machine
end

