-- ==== Sys2Proof/Laws/Ops.lean ====
section
/-! SUPPORT. One lemma per shared operation that says all it can do, which proofs cite instead of unfolding it. -/

namespace Sys2Proof.Machine

/-! ### The input records -/

/-- The records of the next cycle are this cycle's, one later. -/
theorem State.inputAt_succ {s t : State} (hi : t.inputs = s.inputs.tail) (hc : t.cycle = s.cycle + 1) (k : Nat) :
    t.inputAt k = s.inputAt (k + 1) := by
  simp only [State.inputAt, hi, hc, List.getElem?_tail]
  congr 2
  omega

/-- A scheduled record is the input of its cycle. -/
@[simp] theorem State.input_cons (s : State) (i : Input) (rest : List Input) :
    State.input { s with inputs := i :: rest } = i := rfl

theorem State.input_congr {s t : State} (hi : t.inputs = s.inputs) (hc : t.cycle = s.cycle) : t.input = s.input := by
  simp only [State.input, State.inputAt, hi, hc]

/-! ### The counting phases and the waits -/

/-- A counting phase exits at zero, else only decrements the counter. -/
theorem State.countDown_cases (s : State) (exit : State → State) :
    (s.delayCnt = 0 ∧ s.countDown exit = exit s.nextCycle) ∨
    (s.delayCnt ≠ 0 ∧ s.countDown exit = { s.nextCycle with delayCnt := s.delayCnt - 1 }) := by
  unfold State.countDown
  split
  · exact .inl ⟨‹_›, rfl⟩
  · exact .inr ⟨‹_›, rfl⟩

/-- A wait exits on the other level, times out on a met budget, else only counts the poll. -/
theorem State.boundedWait_cases (s : State) (held : Level) (exit : State → State) :
    (s.lineRead ≠ held ∧ s.boundedWait held exit = exit s.nextCycle.clearWait) ∨
    (s.lineRead = held ∧ s.params.budgetMet (s.waitCnt + 1) = true ∧
      s.boundedWait held exit = s.nextCycle.goto .rTimeout) ∨
    (s.lineRead = held ∧ s.params.budgetMet (s.waitCnt + 1) = false ∧
      s.boundedWait held exit = { s.nextCycle with waitCnt := s.waitCnt + 1 }) := by
  unfold State.boundedWait
  split
  · exact .inl ⟨‹_›, rfl⟩
  · split
    · exact .inr (.inl ⟨by simp_all, ‹_›, rfl⟩)
    · exact .inr (.inr ⟨by simp_all, by simp_all, rfl⟩)

/-- The budget is met when it is finite and the count has reached it. -/
theorem Params.budgetMet_iff (p : Params) (n : Nat) :
    p.budgetMet n = true ↔ ∃ w, p.waitBudget = some w ∧ w ≤ n := by
  unfold Params.budgetMet
  cases p.waitBudget <;> simp

/-! ### The line commands -/

/-- A handle is valid when neither part is zero. -/
theorem Handle.valid_iff (h : Handle) : h.valid = true ↔ h.port ≠ 0 ∧ h.pin ≠ 0 := by
  simp [Handle.valid]

/-- A line command is not refused exactly when its handle is one the model gives a meaning. -/
theorem lineRefusal_eq_none_iff (h : Handle) (s : State) : lineRefusal h s = none ↔ HandleOk h s := by
  unfold lineRefusal HandleOk
  cases h.valid <;> cases pinSingle h.pin <;> cases s.runHandle <;> simp

/-- A line command is refused, or runs one cycle with its effect. -/
theorem onLine_next_iff (h : Handle) (s t : State) (effect : State → State) :
    onLine h s effect = .next t ↔ HandleOk h s ∧ effect s.nextCycle = t := by
  rw [← lineRefusal_eq_none_iff]
  unfold onLine
  split <;> simp_all

/-- A line command never faults. -/
theorem onLine_ne_fault (h : Handle) (s : State) (effect : State → State) (r : Fault) :
    onLine h s effect ≠ .fault r := by
  unfold onLine
  split <;> simp

/-! ### The payload -/

/-- Setting a bit of a byte sets that bit and keeps the others. -/
theorem setBit_getLsbD (b : Byte) (i j : Nat) (v : Bool) (hi : i < 8) :
    (setBit b i v).getLsbD j = if j = i then v else b.getLsbD j := by
  by_cases hj : j < 8
  · unfold setBit
    cases v <;> by_cases e : j = i <;> simp [e, hi, hj]
  · rw [BitVec.getLsbD_of_ge _ _ (by omega), BitVec.getLsbD_of_ge b _ (by omega), if_neg (by omega)]

end Sys2Proof.Machine
end

