-- ==== Sys2Proof/Laws/PerInstr.lean ====
section
/-! SUPPORT. Per-instruction families: one lemma per constructor of `Instr`. -/

namespace Sys2Proof.Laws

/-- The two fixed bits of a command row, masked, are the operation code in its place. -/
theorem and_opMask (n : Nat) (h : n < 2 ^ 82) : n &&& 0x300000000000000000000 = n / 2 ^ 80 * 2 ^ 80 := by
  rw [show 0x300000000000000000000 = (2 ^ 2 - 1) * 2 ^ 80 from rfl]
  apply Nat.eq_of_testBit_eq
  intro j
  rw [Nat.testBit_and, Nat.testBit_mul_two_pow, Nat.testBit_mul_two_pow, Nat.testBit_two_pow_sub_one,
    Nat.testBit_div_two_pow]
  by_cases h80 : 80 ≤ j
  · rw [Nat.sub_add_cancel h80]
    by_cases h82 : j < 82
    · simp [h80, show j - 80 < 2 by omega]
    · rw [Nat.testBit_lt_two_pow (Nat.lt_of_lt_of_le h (Nat.pow_le_pow_right (by omega) (by omega)))]
      simp
  · simp [h80]

/-- A command word is covered by the row of its operation code. -/
theorem cmdRow_covers (mnemonic : String) (op : OpCode) (port : PortId) (pin : PinMask) (us : Micros) :
    (cmdRow mnemonic op.toNat).covers (.cmd (encodeCmd op port pin us)) = true := by
  have := port.isLt
  have := pin.isLt
  have := us.isLt
  have hw := (encodeCmd op port pin us).isLt
  simp only [cmdRow, Row.covers, Bool.true_and, beq_iff_eq]
  rw [and_opMask _ hw, encodeCmd_toNat]
  omega

namespace EncodeMatchesRow

/-- The word of an instruction is one its row of the opcode table covers, in as many bytes as the row's width takes. -/
def Statement (i : Instr) : Prop :=
  i.row.covers (encodeWord i) = true ∧ (encode i).length = (i.row.width + 7) / 8

theorem delay (port : PortId) (pin : PinMask) (us : Micros) : Statement (.delay port pin us) :=
  ⟨cmdRow_covers "DELAY" 0 port pin us, by simp [encode, encodeWord, TableWord.bytes, Instr.row, cmdRow]⟩

theorem setout (port : PortId) (pin : PinMask) (us : Micros) : Statement (.setout port pin us) :=
  ⟨cmdRow_covers "SETOUT" 1 port pin us, by simp [encode, encodeWord, TableWord.bytes, Instr.row, cmdRow]⟩

theorem setin (port : PortId) (pin : PinMask) (us : Micros) : Statement (.setin port pin us) :=
  ⟨cmdRow_covers "SETIN" 2 port pin us, by simp [encode, encodeWord, TableWord.bytes, Instr.row, cmdRow]⟩

theorem read (port : PortId) (pin : PinMask) (us : Micros) : Statement (.read port pin us) :=
  ⟨cmdRow_covers "READ" 3 port pin us, by simp [encode, encodeWord, TableWord.bytes, Instr.row, cmdRow]⟩

theorem idle : Statement .idle := ⟨by decide, by decide⟩
theorem dWait : Statement .dWait := ⟨by decide, by decide⟩
theorem rSetout : Statement .rSetout := ⟨by decide, by decide⟩
theorem rDrvLow : Statement .rDrvLow := ⟨by decide, by decide⟩
theorem rLowHold : Statement .rLowHold := ⟨by decide, by decide⟩
theorem rDrvHigh : Statement .rDrvHigh := ⟨by decide, by decide⟩
theorem rHighHold : Statement .rHighHold := ⟨by decide, by decide⟩
theorem rRelease : Statement .rRelease := ⟨by decide, by decide⟩
theorem rHs1 : Statement .rHs1 := ⟨by decide, by decide⟩
theorem rHs2 : Statement .rHs2 := ⟨by decide, by decide⟩
theorem rHs3 : Statement .rHs3 := ⟨by decide, by decide⟩
theorem rBitLow : Statement .rBitLow := ⟨by decide, by decide⟩
theorem rBitDly : Statement .rBitDly := ⟨by decide, by decide⟩
theorem rBitSample : Statement .rBitSample := ⟨by decide, by decide⟩
theorem rBitHigh : Statement .rBitHigh := ⟨by decide, by decide⟩
theorem rValidate : Statement .rValidate := ⟨by decide, by decide⟩
theorem rTimeout : Statement .rTimeout := ⟨by decide, by decide⟩

end EncodeMatchesRow

end Sys2Proof.Laws
end

