-- ==== Sys2Proof/Laws/Run.lean ====
section
/-! SUPPORT. Runs of several cycles: how they are put together, and what the input record of a later cycle is. -/

namespace Sys2Proof.Machine

@[simp] theorem runFor_zero (s : State) : runFor 0 s = .next s := rfl

/-- A run begins with a step. -/
theorem runFor_succ {s t : State} (h : step s = .next t) (n : Nat) : runFor (n + 1) s = runFor n t := by
  have h' : Sys2Proof.core.step s = .next t := h
  simp only [runFor, Host.Core.run, h']
  rfl

/-- A run of `m + n` cycles is one of `n` after one of `m`. -/
theorem runFor_add {s t : State} {m : Nat} (h : runFor m s = .next t) (n : Nat) :
    runFor (m + n) s = runFor n t := by
  induction m generalizing s with
  | zero => cases h; rw [Nat.zero_add]
  | succ m ih =>
    cases hs : step s with
    | next u =>
      rw [runFor_succ hs] at h
      rw [Nat.add_right_comm, runFor_succ hs]
      exact ih h
    | fault r =>
      have h' : Sys2Proof.core.step s = .fault r := hs
      simp [runFor, Host.Core.run, h'] at h
    | refused r =>
      have h' : Sys2Proof.core.step s = .refused r := hs
      simp [runFor, Host.Core.run, h'] at h

/-- The records of a later cycle are this cycle's, that many later. -/
theorem State.inputAt_add {s t : State} {m : Nat} (hi : t.inputs = s.inputs.drop m) (hc : t.cycle = s.cycle + m)
    (k : Nat) : t.inputAt k = s.inputAt (m + k) := by
  simp only [State.inputAt, hi, hc, List.getElem?_drop]
  congr 2
  omega

/-- With no reset in `n + 1` cycles there is none in the `n` after this one. -/
theorem NoResetFor.succ {s t : State} {n : Nat} (h : NoResetFor s (n + 1)) (hi : t.inputs = s.inputs.tail)
    (hc : t.cycle = s.cycle + 1) : NoResetFor t n := by
  intro k hk
  rw [State.inputAt_succ hi hc]
  exact h _ (by omega)

end Sys2Proof.Machine
end

