-- ==== Sys2Proof/Tests/Slice0.lean ====
section
/-! SUPPORT. Tests: the WellFormed smoke, every constructor's word, one or two single steps per instruction, and for each
obligation with hypotheses a witness that meets them. Expected values are those of `95_test_vectors.md` (the vector is
named) or are worked out by hand from the cited rule. -/

namespace Sys2Proof.Machine.Tests

/-! ### Helpers -/

/-- TC1 of `95_test_vectors.md`. -/
def tc1 : Params := ⟨1, 1, 1000, 20, 30, some 200, .timeout, 2000000⟩
/-- TC2: millisecond ticks. -/
def tc2 : Params := { tc1 with tickUs := 1000, cyclesPerTick := 1000 }
/-- TC3: the smallest budget. -/
def tc3 : Params := { tc1 with waitBudget := some 1 }
/-- TC4: no budget. -/
def tc4 : Params := { tc1 with waitBudget := none }
/-- TC5: the other status of an invalid handle. -/
def tc5 : Params := { tc1 with invalidHandleStatus := .error }
/-- Ticks so coarse that a READ is short: `NL` = 1, `NR` = `NS` = 0, budget 1. -/
def coarse : Params := { tc1 with tickUs := 1000, waitBudget := some 1 }

/-- An input record without a command. -/
def quiet (v : Level) : Input := ⟨false, false, 0, 0, 0, 0, v⟩
/-- An input record with a command. -/
def offer (op : OpCode) (port : PortId) (pin : PinMask) (us : Micros) : Input := ⟨false, true, op, port, pin, us, .high⟩
/-- The handle `Hv` of the vectors. -/
def hv : Handle := ⟨0x40010800, 0x0002⟩
/-- The reset state with the parameters and inputs given. -/
def start (p : Params) (is : List Input) : State := { State.reset with params := p, inputs := is }
/-- A READ of `hv` in a phase, the line an input. -/
def inPhase (p : Params) (ph : Phase) (v : Level) : State :=
  { start p [quiet v] with phase := ph, handle := hv, runHandle := some hv, lineDrv := some .high }
/-- The next state, if there is one. -/
def next? : Host.Outcome State Fault Refusal → Option State
  | .next s => some s
  | .fault _ => none
  | .refused _ => none
/-- Whether an outcome is a given refusal. -/
def refusedBy (r : Refusal) : Host.Outcome State Fault Refusal → Bool
  | .next _ => false
  | .fault _ => false
  | .refused q => q == r

/-! ### WellFormed: a term that passes and a term that does not, for each constructor with a check -/

theorem test_wellFormed_setout : (Instr.setout 0x40010800 0x0002 0).wellFormed = true ∧
    (Instr.setout 0x40010800 0x0006 0).wellFormed = false := by decide
theorem test_wellFormed_setin : (Instr.setin 0x40010800 0x8000 0).wellFormed = true ∧
    (Instr.setin 0x40010800 0x8001 0).wellFormed = false := by decide
theorem test_wellFormed_read : (Instr.read 0 0x0006 0).wellFormed = true ∧
    (Instr.read 1 0xFFFF 0).wellFormed = false := by decide

/-! ### Decoding: a word of every row, from rule R80's fields and rule R21's codes -/

/-- L2-1 rows 3 and 4, L2-2 rows 1 and 11, P1. -/
theorem test_decode_commands :
    decodeTableWord 88 0x00000000000000000001E = some (.delay 0 0 30) ∧
    decodeTableWord 88 0x0FFFFFFFFFFFF00000005 = some (.delay 0xFFFFFFFF 0xFFFF 5) ∧
    decodeTableWord 88 0x140010800000200000000 = some (.setout 0x40010800 2 0) ∧
    decodeTableWord 88 0x2400108000002DEADBEEF = some (.setin 0x40010800 2 0xDEADBEEF) ∧
    decodeTableWord 88 0x340010800000200000000 = some (.read 0x40010800 2 0) := by decide
/-- Rule R21's table, code by code. -/
theorem test_decode_phases :
    (List.range 17).map (decodeTableWord 8) =
      [some .idle, some .dWait, some .rSetout, some .rDrvLow, some .rLowHold, some .rDrvHigh, some .rHighHold,
       some .rRelease, some .rHs1, some .rHs2, some .rHs3, some .rBitLow, some .rBitDly, some .rBitSample,
       some .rBitHigh, some .rValidate, some .rTimeout] := by decide
/-- Rule R80's fields, bit by bit: op 10, port 1 at bit 48, pin 1 at bit 32, us 1 at bit 0. -/
theorem test_decode_field_places :
    decodeTableWord 88 (2 * 2 ^ 80 + 2 ^ 48 + 2 ^ 32 + 1) = some (.setin 1 1 1) := by decide
theorem test_decode_rejects :
    decode [0x11] = .error .reservedPhaseCode ∧ decode [0x20] = .error .paddingSet ∧ decode [0, 0] = .error .noSuchLength ∧
    decodeTableWord 88 (2 ^ 82) = none := by decide
/-- The examples of rule R92's table. -/
theorem test_script :
    (Instr.read 0x40010800 2 0).script =
      some ['R', 'E', 'A', 'D', ' ', '4', '0', '0', '1', '0', '8', '0', '0', ':', '0', '0', '0', '2'] ∧
    (Instr.delay 0 0 30).script = some ['D', 'E', 'L', 'A', 'Y', ' ', '3', '0'] := by decide

/-! ### Single steps -/

/-- L2-1 rows 3 and 8. -/
theorem test_delay_loads :
    (next? (step (start tc1 [offer 0 0 0 30]))).map (·.delayCnt) = some 30 ∧
    (next? (step (start tc2 [offer 0 0 0 2500]))).map (·.delayCnt) = some 2000 := by decide
/-- Rule R103, both branches. -/
theorem test_dWait :
    (next? (exec .dWait { inPhase tc1 .dWait .low with delayCnt := 5 })).map (fun t => (t.delayCnt, t.phase, t.done)) =
      some (4, .dWait, false) ∧
    (next? (exec .dWait (inPhase tc1 .dWait .low))).map (fun t => (t.phase, t.done)) = some (.idle, true) := by decide
/-- L2-2 row 4. -/
theorem test_setout_forgets_the_level :
    (next? (exec (.setout 0x40010800 2 0) (inPhase tc1 .idle .low))).map (fun t => (t.lineDir, t.lineDrv, t.handle, t.done)) =
      some (.output, none, hv, true) := by decide
/-- L2-2 row 10. -/
theorem test_setout_null_port :
    (next? (exec (.setout 0 2 0) (inPhase tc1 .idle .low))).map (fun t => (t.lineDir, t.lineDrv, t.handle, t.done)) =
      some (.input, some .high, hv, true) := by decide
/-- L2-2 row 2. -/
theorem test_setin :
    (next? (exec (.setin 0x40010800 2 0) { inPhase tc1 .idle .low with lineDir := .output, lineDrv := none })).map
      (fun t => (t.lineDir, t.lineDrv, t.handle)) = some (.input, none, hv) := by decide
/-- L2-2 row 9. -/
theorem test_setin_zero_pin :
    (next? (exec (.setin 0x40010800 0 0) { inPhase tc1 .idle .low with lineDir := .output, lineDrv := none })).map
      (fun t => (t.lineDir, t.lineDrv, t.handle)) = some (.output, none, hv) := by decide
/-- L2-9 row 1, under TC1 and TC5. -/
theorem test_read_invalid :
    (next? (exec (.read 0x40010800 0 0) (start tc1 []))).map (fun t => (t.status, t.done, t.phase)) =
      some (.timeout, true, .idle) ∧
    (next? (exec (.read 0x40010800 0 0) (start tc5 []))).map (fun t => (t.status, t.handle)) =
      some (.error, ⟨0, 0⟩) := by decide
/-- L2-10 item 4, `S_1`; L2-10 item 5, `MEAS_VALID` cleared at acceptance with `STATUS` kept. -/
theorem test_read_valid :
    (next? (exec (.read 0x40010800 2 0) { start tc1 [] with measValid := true, status := .ok, bitIdx := 40 })).map
      (fun t => (t.phase, t.handle, t.lineDir, t.measValid, t.status, t.bitIdx)) =
      some (.rSetout, hv, .input, false, .ok, 0) := by decide
/-- Rules R95 and R233: the two refusals, and the null port that is none of them. -/
theorem test_refusals :
    refusedBy .severalPins (exec (.read 0x40010800 3 0) (start tc1 [])) = true ∧
    refusedBy .handleChanged (exec (.setin 0x40010800 4 0) (inPhase tc1 .idle .low)) = true ∧
    (next? (exec (.setout 0 3 0) (start tc1 []))).isSome = true := by decide
/-- Rule R233: another valid handle is refused after a reset too, and the same one is not. -/
theorem test_changed_handle_over_reset :
    refusedBy .handleChanged (exec (.setout 0x40010800 4 0) (State.resetCycle (inPhase tc1 .idle .low))) = true ∧
    (next? (exec (.setout 0x40010800 2 0) (State.resetCycle (inPhase tc1 .idle .low)))).isSome = true := by decide
/-- Rule R91: a command offered in IDLE is taken by the row IDLE, and one offered while busy is dropped (L2-10 item 2). -/
theorem test_idle :
    (next? (exec .idle (start tc1 [offer 1 0x40010800 2 0]))).map (·.lineDir) = some .output ∧
    (next? (step { inPhase tc1 .rLowHold .low with
        delayCnt := 903, lineDir := .output, inputs := [offer 2 0x40010800 2 0] })).map
      (fun t => (t.delayCnt, t.lineDir, t.done)) =
      some (902, .output, false) := by decide
/-- Rule R7: with no command only `DONE` is cleared. -/
theorem test_idle_clears_done :
    next? (exec .idle { start tc1 [quiet .low] with done := true }) = some { start tc1 [] with cycle := 1 } := by decide
/-- L2-10 item 3: reset in the middle of a READ. -/
theorem test_reset :
    next? (step { inPhase tc1 .rLowHold .low with
        delayCnt := 503, lineDir := .output, lineDrv := some .low, inputs := [{ quiet .low with rst := true }] }) =
      some { start tc1 [] with cycle := 1, runHandle := some hv } := by decide
/-- L2-10 item 4, `S_2`. -/
theorem test_rSetout :
    (next? (exec .rSetout (inPhase tc1 .rSetout .low))).map (fun t => (t.phase, t.lineDir, t.lineDrv)) =
      some (.rDrvLow, .output, none) := by decide
/-- L2-10 item 4, `S_3`. -/
theorem test_rDrvLow :
    (next? (exec .rDrvLow (inPhase tc1 .rDrvLow .low))).map (fun t => (t.phase, t.lineDrv, t.delayCnt)) =
      some (.rLowHold, some .low, 1000) := by decide
/-- L2-10 item 4, `S_4` and `S_1004`. -/
theorem test_rLowHold :
    (next? (exec .rLowHold { inPhase tc1 .rLowHold .low with delayCnt := 1000 })).map (fun t => (t.phase, t.delayCnt)) =
      some (.rLowHold, 999) ∧
    (next? (exec .rLowHold (inPhase tc1 .rLowHold .low))).map (fun t => (t.phase, t.delayCnt)) =
      some (.rDrvHigh, 0) := by decide
/-- P1 and P6: the release delay is 20 cycles under TC1 and none under TC2. -/
theorem test_rDrvHigh :
    (next? (exec .rDrvHigh (inPhase tc1 .rDrvHigh .low))).map (fun t => (t.phase, t.lineDrv, t.delayCnt)) =
      some (.rHighHold, some .high, 20) ∧
    (next? (exec .rDrvHigh (inPhase tc2 .rDrvHigh .low))).map (·.delayCnt) = some 0 := by decide
/-- P1, cycles 1005 and 1025. -/
theorem test_rHighHold :
    (next? (exec .rHighHold { inPhase tc1 .rHighHold .low with delayCnt := 20 })).map (fun t => (t.phase, t.delayCnt)) =
      some (.rHighHold, 19) ∧
    (next? (exec .rHighHold (inPhase tc1 .rHighHold .low))).map (·.phase) = some .rRelease := by decide
/-- P1, cycle 1026. -/
theorem test_rRelease :
    (next? (exec .rRelease { inPhase tc1 .rRelease .low with lineDir := .output, waitCnt := 7 })).map
      (fun t => (t.phase, t.lineDir, t.lineDrv, t.waitCnt)) = some (.rHs1, .input, some .high, 0) := by decide
/-- L2-4 rows 5 and 6: after 199 polls the exit wins, the 200th held poll times out with `WAIT_CNT` left at 199 (P3). -/
theorem test_rHs1 :
    (next? (exec .rHs1 { inPhase tc1 .rHs1 .low with waitCnt := 199 })).map (fun t => (t.phase, t.waitCnt)) =
      some (.rHs2, 0) ∧
    (next? (exec .rHs1 { inPhase tc1 .rHs1 .high with waitCnt := 199 })).map (fun t => (t.phase, t.waitCnt)) =
      some (.rTimeout, 199) := by decide
/-- L2-4 row 7's budget of 1, in the second wait; and rule R141's exit. -/
theorem test_rHs2 :
    (next? (exec .rHs2 (inPhase tc3 .rHs2 .low))).map (·.phase) = some .rTimeout ∧
    (next? (exec .rHs2 (inPhase tc3 .rHs2 .high))).map (·.phase) = some .rHs3 := by decide
/-- L2-4 row 9's `INF`, in the third wait; and rule R142's exit. -/
theorem test_rHs3 :
    (next? (exec .rHs3 { inPhase tc4 .rHs3 .high with waitCnt := 100000 })).map (fun t => (t.phase, t.waitCnt)) =
      some (.rHs3, 100001) ∧
    (next? (exec .rHs3 (inPhase tc4 .rHs3 .low))).map (·.phase) = some .rBitLow := by decide
/-- P1, cycles 1267 and 1218. -/
theorem test_rBitLow :
    (next? (exec .rBitLow { inPhase tc1 .rBitLow .high with waitCnt := 49 })).map (fun t => (t.phase, t.waitCnt, t.delayCnt)) =
      some (.rBitDly, 0, 30) ∧
    (next? (exec .rBitLow (inPhase tc1 .rBitLow .low))).map (fun t => (t.phase, t.waitCnt)) =
      some (.rBitLow, 1) := by decide
/-- P1, cycles 1268 and 1298. -/
theorem test_rBitDly :
    (next? (exec .rBitDly { inPhase tc1 .rBitDly .low with delayCnt := 30 })).map (fun t => (t.phase, t.delayCnt)) =
      some (.rBitDly, 29) ∧
    (next? (exec .rBitDly (inPhase tc1 .rBitDly .low))).map (·.phase) = some .rBitSample := by decide
/-- P1, bits 6 and 39. -/
theorem test_rBitSample :
    (next? (exec .rBitSample { inPhase tc1 .rBitSample .high with bitIdx := 6 })).map (fun t => (t.payload, t.bitIdx)) =
      some (⟨0x02, 0, 0, 0, 0⟩, 7) ∧
    (next? (exec .rBitSample { inPhase tc1 .rBitSample .high with
        bitIdx := 39, payload := ⟨0x02, 0x8C, 0x01, 0x0E, 0x9C⟩ })).map (fun t => (t.payload, t.bitIdx, t.phase)) =
      some (⟨0x02, 0x8C, 0x01, 0x0E, 0x9D⟩, 40, .rBitHigh) := by decide
/-- P1, cycles 1300 and 4829. -/
theorem test_rBitHigh :
    (next? (exec .rBitHigh { inPhase tc1 .rBitHigh .low with bitIdx := 1 })).map (·.phase) = some .rBitLow ∧
    (next? (exec .rBitHigh { inPhase tc1 .rBitHigh .low with bitIdx := 40 })).map (·.phase) = some .rValidate := by decide
/-- L1-5. -/
theorem test_rValidate_ok :
    (next? (exec .rValidate { inPhase tc1 .rValidate .low with payload := ⟨0x02, 0x8C, 0x01, 0x0E, 0x9D⟩ })).map
      (fun t => (t.status, t.measValid, t.done)) = some (.ok, true, true) ∧
    (next? (exec .rValidate { inPhase tc1 .rValidate .low with payload := ⟨0x02, 0x8C, 0x01, 0x0E, 0x9D⟩ })).map
      (fun t => (t.hRaw, t.tRaw)) = some (some 652, some 270) := by decide
/-- L1-5p. -/
theorem test_rValidate_error :
    (next? (exec .rValidate { inPhase tc1 .rValidate .low with payload := ⟨0x02, 0x8C, 0x01, 0x0E, 0x9F⟩ })).map
      (fun t => (t.status, t.measValid, t.done)) = some (.error, false, true) ∧
    (next? (exec .rValidate { inPhase tc1 .rValidate .low with payload := ⟨0x02, 0x8C, 0x01, 0x0E, 0x9F⟩ })).map
      (fun t => (t.hRaw, t.tRaw)) = some (none, none) := by decide
/-- P3, cycle 1227. -/
theorem test_rTimeout :
    (next? (exec .rTimeout { inPhase tc1 .rTimeout .low with waitCnt := 199 })).map
      (fun t => (t.phase, t.status, t.done, t.lineDir, t.waitCnt)) =
      some (.idle, .timeout, true, .input, 199) := by decide

/-! ### Payload functions and host side -/

/-- L2-6. -/
theorem test_assembleBit :
    assembleBit 0 true ⟨0, 0, 0, 0, 0⟩ = ⟨0x80, 0, 0, 0, 0⟩ ∧ assembleBit 15 true ⟨0, 0, 0, 0, 0⟩ = ⟨0, 0x01, 0, 0, 0⟩ ∧
    assembleBit 39 false ⟨0x02, 0x8C, 0x01, 0x0E, 0x9C⟩ = ⟨0x02, 0x8C, 0x01, 0x0E, 0x9C⟩ := by decide
/-- L2-6. -/
theorem test_checksum :
    checksumOk ⟨0xFF, 0xFF, 0xFF, 0xFF, 0xFC⟩ = true ∧ checksumOk ⟨0xFF, 0xFF, 0xFF, 0xFF, 0xFF⟩ = false ∧
    checksumOk ⟨0xFF, 0x01, 0, 0, 0⟩ = true ∧ checksumOk ⟨0xFF, 0x01, 0, 0, 0x01⟩ = false := by decide
/-- L2-7. -/
theorem test_measurement :
    decodeMeasurement ⟨0x01, 0xF4, 0x80, 0x65, 0xDA⟩ = (500, 32869) ∧
    encodeMeasurement 0 65535 = ⟨0, 0, 0xFF, 0xFF, 0xFE⟩ := by decide
/-- L2-8. -/
theorem test_tempAbove : tempAbove 400 = false ∧ tempAbove 401 = true := by decide
/-- L2-8. -/
theorem test_gasAbove : gasAbove (299999 / 1000) = false ∧ gasAbove 300 = true := by
  constructor <;> norm_num [gasAbove]
/-- L2-8, rows 1 and 6 of L2-3; and a READ that failed. -/
theorem test_readAlarm :
    readAlarm (outputs { start tc1 [] with status := .ok, measValid := true, hRaw := some 652, tRaw := some 270 }) = false ∧
    readAlarm (outputs { start tc1 [] with status := .ok, measValid := true, hRaw := some 400, tRaw := some 401 }) = true ∧
    readAlarm (outputs { start tc1 [] with status := .error, hRaw := some 400, tRaw := some 401 }) = false := by decide
/-- L2-10 item 1. -/
theorem test_reset_outputs :
    outputs State.reset = ⟨true, false, false, false, false, none, 1, none, none, 0, 0⟩ := by rfl
/-- Rule R117: a level driven; L2-10 item 5: the stale measurement is not shown. -/
theorem test_outputs :
    (outputs { inPhase tc1 .rDrvHigh .low with lineDir := .output, lineDrv := some .low }).lineOut = some .low ∧
    (outputs { start tc1 [] with hRaw := some 652 }).hRaw = none := by decide

/-! ### What the host asks: a word placed is decoded and run -/

theorem test_withFetchWord_command :
    step (State.reset.withFetchWord 88 0x340010800000200000000) =
      exec (.read 0x40010800 2 0) (State.reset.withFetchWord 88 0x340010800000200000000) := by rfl
theorem test_withFetchWord_phase :
    step (State.reset.withFetchWord 8 0x0D) = exec .rBitSample (State.reset.withFetchWord 8 0x0D) := by rfl

/-! ### Witnesses: for each obligation with hypotheses, operands and states that meet them, clause by clause -/

theorem tc1_admissible : tc1.Admissible := ⟨by decide, by decide, by decide, by decide, by decide⟩
theorem tc4_admissible : tc4.Admissible := ⟨by decide, by decide, by decide, by decide, by decide⟩
theorem coarse_admissible : coarse.Admissible := ⟨by decide, by decide, by decide, by decide, by decide⟩

/-- Records without a reset are cycles without a reset. -/
theorem noResetFor_of_inputs (s : State) (n : Nat) (hn : n ≤ s.inputs.length) (h : ∀ i ∈ s.inputs, i.rst = false) :
    NoResetFor s n := by
  intro k hk
  have hk' : k < s.inputs.length := by omega
  simp only [State.inputAt, List.getElem?_eq_getElem hk', Option.getD_some]
  exact h _ (List.getElem_mem hk')

/-- A state inside a READ that meets the invariant. -/
theorem inv_inPhase : Inv (inPhase tc1 .rBitLow .high) := by
  constructor <;> first | exact tc1_admissible | decide
/-- A state with a measurement that meets the invariant. -/
def measured : State :=
  { inPhase tc1 .idle .low with
    payload := ⟨0x01, 0x90, 0x01, 0x91, 0x23⟩, status := .ok, measValid := true, hRaw := some 400, tRaw := some 401 }
theorem inv_measured : Inv measured := by
  constructor <;> first | exact tc1_admissible | decide

theorem witness_DecodedBytesAreTheEncoding :
    decode [0x10] = .ok .rTimeout ∧ decode [30, 0, 0, 0, 0, 0, 0, 0, 0, 0, 0] = .ok (.delay 0 0 30) := by decide
theorem witness_CommandWordReadsAsItsTable :
    (2 ^ 80 - 1) / 2 ^ 80 = 0 ∧ 2 ^ 80 / 2 ^ 80 = 1 ∧ (2 ^ 82 - 2 ^ 80 - 1) / 2 ^ 80 = 2 ∧ (2 ^ 82 - 1) / 2 ^ 80 = 3 := by decide
theorem witness_PhaseCodesAreTheTable : (17 ≤ 17 ∧ 17 < 32) ∧ (17 ≤ 31 ∧ 31 < 32) := by decide
theorem witness_StepRunsTheDecodedInstruction :
    (start tc1 [offer 3 0x40010800 2 0]).input.rst = false ∧ (start tc1 [offer 3 0x40010800 2 0]).phase = .idle ∧
    (start tc1 [offer 3 0x40010800 2 0]).input.cmdValid = true ∧
    decode (TableWord.cmd ((3 : OpCode) ++ (0x40010800 : PortId) ++ (2 : PinMask) ++ (0 : Micros))).bytes = .ok (.read 0x40010800 2 0) ∧
    (inPhase tc1 .rHs1 .low).input.rst = false ∧ (inPhase tc1 .rHs1 .low).phase ≠ .idle ∧
    (inPhase tc1 .idle .low).input.cmdValid = false ∧
    decode (TableWord.phase (Phase.rHs1).code).bytes = .ok .rHs1 := by decide
theorem witness_EveryCycleHasAnInstruction : (inPhase tc1 .rHs1 .low).input.rst = false := by decide
theorem witness_ResetLoadsEveryRegister : (start tc1 [{ quiet .low with rst := true }]).input.rst = true := by decide
theorem witness_IdleWithoutCommandClearsDone : (inPhase tc1 .idle .low).input.cmdValid = false := by decide
theorem witness_CommandsAreTakenOnlyInIdle :
    ((start tc1 [offer 0 0 0 5]).phase = .idle ∧ (start tc1 [offer 0 0 0 5]).input.rst = false ∧
      (start tc1 [offer 0 0 0 5]).input.cmdValid = true) ∧
    ((offer 0 0 0 5).rst = (quiet .high).rst ∧ (offer 0 0 0 5).lineIn = (quiet .high).lineIn ∧
      (inPhase tc1 .rHs1 .high).phase ≠ .idle) ∧
    ((quiet .high).cmdValid = false ∧ { offer 0 0 0 5 with cmdValid := false }.cmdValid = false) ∧
    (inPhase tc1 .dWait .high).phase ≠ .idle ∧
    ((next? (step (inPhase tc1 .dWait .high))).map (·.phase)) = some .idle := by decide
theorem witness_NcycCountsWholeTicks :
    1 ≤ tc2.tickUs ∧ 999 < tc2.tickUs ∧ (inPhase tc2 .rBitLow .high).params = tc2 ∧
    (inPhase tc2 .rBitLow .high).input.lineIn = .high := by decide
theorem witness_DWaitCountsDown :
    (inPhase tc1 .dWait .low).delayCnt = 0 ∧ { inPhase tc1 .dWait .low with delayCnt := 1 }.delayCnt ≠ 0 := by decide
theorem witness_DelayCompletesOnTime :
    (start tc1 [offer 0 0 0 1, quiet .low, quiet .high]).phase = .idle ∧
    (start tc1 [offer 0 0 0 1, quiet .low, quiet .high]).input.cmdValid = true ∧
    (start tc1 [offer 0 0 0 1, quiet .low, quiet .high]).input.cmdOp = 0 ∧
    NoResetFor (start tc1 [offer 0 0 0 1, quiet .low, quiet .high]) (ncyc tc1 1 + 2) ∧
    NoResetFor (start tc1 [offer 0 0 0 0, quiet .low]) (ncyc tc1 0 + 2) := by decide
/-- For SETOUT, SETIN and READ: valid handles (none in use, the same in use), and both kinds of invalid one. -/
theorem witness_line_commands :
    HandleOk hv (start tc1 []) ∧ hv.port ≠ 0 ∧ hv.pin ≠ 0 ∧ HandleOk hv (inPhase tc1 .idle .low) ∧
    HandleOk ⟨1, 0x8000⟩ (start tc1 []) ∧ HandleOk ⟨0, 3⟩ (inPhase tc1 .idle .low) ∧
    HandleOk ⟨1, 0⟩ (inPhase tc1 .idle .low) := by decide
theorem witness_ReadIsAccepted :
    (start tc1 []).params.Admissible ∧ (inPhase tc1 .rTimeout .low).phase.isRead = true ∧
    (inPhase tc1 .rTimeout .low).input.rst = false ∧ ∃ t, step (inPhase tc1 .rTimeout .low) = .next t :=
  ⟨tc1_admissible, by decide, by decide, _, rfl⟩
theorem witness_SeveralPinsAreRefused :
    (1 : PortId) ≠ 0 ∧ (0x8001 : PinMask).getLsbD 0 = true ∧ (0x8001 : PinMask).getLsbD 15 = true := by decide
theorem witness_ChangedHandleIsRefused :
    ((1 : PortId) ≠ 0 ∧ (0x8000 : PinMask) ≠ 0 ∧ (inPhase tc1 .idle .low).runHandle = some hv ∧ hv ≠ ⟨1, 0x8000⟩ ∧
      hv ≠ ⟨1, 0x8001⟩) ∧
    (∃ t, step { inPhase tc1 .rHs1 .low with inputs := [{ quiet .low with rst := true }] } = .next t ∧ t.handle = .null) ∧
    (start tc1 [offer 1 0x40010800 2 0]).runHandle = none ∧
    (∃ t, step (start tc1 [offer 1 0x40010800 2 0]) = .next t ∧ t.runHandle = some hv) ∧
    ∃ t, step (start tc1 [offer 1 0 2 0]) = .next t ∧ t.runHandle = none :=
  ⟨by decide, ⟨_, rfl, rfl⟩, rfl, ⟨_, rfl, rfl⟩, ⟨_, rfl, rfl⟩⟩
/-- For R_SETOUT, R_RELEASE and R_TIMEOUT: a valid latched handle, and the null one. -/
theorem witness_latched_handle :
    (inPhase tc1 .rSetout .low).handle.port ≠ 0 ∧ (inPhase tc1 .rSetout .low).handle.pin ≠ 0 ∧
    (start tc1 []).handle.port = 0 ∧ (start tc1 []).handle.pin = 0 := by decide
theorem witness_RLowHoldCountsDown :
    (inPhase tc1 .rLowHold .low).delayCnt = 0 ∧
    { inPhase coarse .rLowHold .low with delayCnt := 1, inputs := [quiet .low, quiet .low] }.delayCnt =
      ncyc coarse coarse.tStartLowUs ∧
    NoResetFor { inPhase coarse .rLowHold .low with delayCnt := 1, inputs := [quiet .low, quiet .low] } 2 := by decide
theorem witness_RHighHoldCountsDown :
    (inPhase coarse .rHighHold .low).delayCnt = ncyc coarse coarse.tReleaseUs ∧
    { inPhase tc1 .rHighHold .low with delayCnt := 20 }.delayCnt = ncyc tc1 tc1.tReleaseUs ∧
    NoResetFor { inPhase tc1 .rHighHold .low with delayCnt := 20, inputs := List.replicate 21 (quiet .low) } 21 := by decide
theorem witness_RBitDlyCountsBlindly :
    (inPhase coarse .rBitDly .low).delayCnt = ncyc coarse coarse.tSampleUs ∧
    { inPhase tc1 .rBitDly .low with delayCnt := 30 }.delayCnt = ncyc tc1 tc1.tSampleUs ∧
    NoResetFor { inPhase tc1 .rBitDly .low with delayCnt := 30, inputs := List.replicate 31 (quiet .low) } 31 := by decide
/-- For the five waits: the exit level; the held level at a met budget; the held level below it, and without one. -/
theorem witness_waits :
    ((inPhase tc1 .rHs1 .low).input.lineIn ≠ .high ∧ (inPhase tc1 .rHs2 .high).input.lineIn ≠ .low) ∧
    (∃ w, { inPhase tc1 .rHs1 .high with waitCnt := 199 }.params.waitBudget = some w ∧ w ≤ 199 + 1) ∧
    (∀ w, (inPhase tc1 .rHs1 .high).params.waitBudget = some w → 198 + 1 < w) ∧
    (∀ w, (inPhase tc4 .rHs1 .high).params.waitBudget = some w → 198 + 1 < w) ∧
    (inPhase tc1 .rBitLow .high).input.lineIn = .high ∧ (inPhase tc1 .rBitLow .low).input.lineIn = .low :=
  ⟨by decide, ⟨200, by decide⟩, (fun w h => by cases h; decide), (fun w h => by cases h), by decide, by decide⟩
theorem witness_WaitsEndAtTheirBudget :
    ((inPhase tc3 .rHs2 .low).phase.held = some .low ∧ (inPhase tc3 .rHs2 .low).waitCnt = 0 ∧
      LineHeldFor (inPhase tc3 .rHs2 .low) 1 .low ∧ (inPhase tc3 .rHs2 .low).params.waitBudget = some 1 ∧
      NoResetFor (inPhase tc3 .rHs2 .low) 1) ∧
    ((∀ w, tc1.waitBudget = some w → 2 < w) ∧
      LineHeldFor { inPhase tc1 .rBitHigh .high with inputs := [quiet .high, quiet .high, quiet .low] } 2 .high ∧
      NoResetFor { inPhase tc1 .rBitHigh .high with inputs := [quiet .high, quiet .high, quiet .low] } 3 ∧
      (State.inputAt { inPhase tc1 .rBitHigh .high with inputs := [quiet .high, quiet .high, quiet .low] } 2).lineIn ≠ .high) ∧
    (∀ w, tc3.waitBudget = some w → 0 < w) ∧ (∀ w, tc4.waitBudget = some w → 2 < w) :=
  ⟨by decide, ⟨(fun w h => by cases h; decide), by decide⟩, (fun w h => by cases h; decide), (fun w h => by cases h)⟩
theorem witness_RBitSampleStoresTheLevel : { inPhase tc1 .rBitSample .low with bitIdx := 39 }.bitIdx.toNat < 40 := by decide
theorem witness_SamplePastTheFrameStops : 40 ≤ { inPhase tc1 .rBitSample .low with bitIdx := 40 }.bitIdx.toNat := by decide
theorem witness_RBitHighWaitsForTheEndOfBit :
    (inPhase tc1 .rBitHigh .low).input.lineIn = .low ∧ { inPhase tc1 .rBitHigh .low with bitIdx := 40 }.bitIdx.toNat = 40 ∧
    { inPhase tc1 .rBitHigh .low with bitIdx := 39 }.bitIdx.toNat ≠ 40 ∧
    (inPhase tc1 .rBitHigh .high).input.lineIn = .high := by decide
theorem witness_RValidatePublishesOrFails :
    checksumOk ⟨0x02, 0x8C, 0x01, 0x0E, 0x9D⟩ = true ∧ checksumOk ⟨0x02, 0x8C, 0x01, 0x0E, 0x9F⟩ = false := by decide
theorem witness_AssembleBitWritesOneBit : 39 < 40 ∧ (4, 1) ≠ (39 / 8, 7 - 39 % 8) ∧ (3, 0) ≠ (39 / 8, 7 - 39 % 8) := by decide
theorem witness_ShiftRegisterFormAgrees : (true :: List.replicate 39 false).length = 40 := by decide
theorem witness_ChecksumCannotSeeOrder : List.Perm ([1, 2, 3, 4] : List Byte) [4, 3, 1, 2] := by decide
theorem witness_EveryStepKeepsTheInvariant :
    Inv (inPhase tc1 .rBitLow .high) ∧ ∃ t, step (inPhase tc1 .rBitLow .high) = .next t :=
  ⟨inv_inPhase, _, rfl⟩
theorem witness_StepsGoOnUnderTheInvariant :
    Inv (inPhase tc1 .rBitLow .high) ∧ (inPhase tc1 .rBitLow .high).phase ≠ .idle ∧
    Inv measured ∧ measured.input.cmdValid = false ∧
    Inv { measured with inputs := [offer 3 0x40010800 2 0] } ∧
    HandleOk hv { measured with inputs := [offer 3 0x40010800 2 0] } ∧
    (State.input { measured with inputs := [offer 0 0 0 0] }).cmdOp = 0 ∧
    (State.input { measured with inputs := [{ quiet .low with rst := true }] }).rst = true :=
  ⟨inv_inPhase, by decide, inv_measured, by decide, { inv_measured with }, by decide, by decide, by decide⟩
/-- For STATUS, the measurement, MEAS_VALID, DONE and the transitions: the steps that write each, and one that does not. -/
theorem witness_steps_of_the_flags :
    (∃ t, step { inPhase tc1 .rValidate .low with payload := ⟨0x02, 0x8C, 0x01, 0x0E, 0x9D⟩ } = .next t) ∧
    (∃ t, step (inPhase tc1 .rTimeout .low) = .next t) ∧ (∃ t, step (start tc1 [offer 3 0 2 0]) = .next t) ∧
    (∃ t, step (start tc1 [offer 1 0x40010800 2 0]) = .next t) ∧ (∃ t, step (inPhase tc1 .rHs1 .low) = .next t) ∧
    (inPhase tc1 .rValidate .low).input.rst = false ∧ (start tc1 [offer 3 0 2 0]).input.rst = false :=
  ⟨⟨_, rfl⟩, ⟨_, rfl⟩, ⟨_, rfl⟩, ⟨_, rfl⟩, ⟨_, rfl⟩, by decide, by decide⟩
theorem witness_MeasValidFollowsTheLastRead :
    Inv measured ∧ ∃ t, step measured = .next t ∧ t.measValid = true ∧ t.status = .ok ∧ t.phase.isRead = false :=
  ⟨inv_measured, _, rfl, by decide⟩
theorem witness_PadChangesOnlyByThePrimitives :
    (∃ t, step (inPhase tc1 .rSetout .low) = .next t ∧ t.lineDir ≠ .input ∧ t.lineDrv ≠ some .high) ∧
    (∃ t, step { inPhase tc1 .rRelease .low with lineDir := .output } = .next t ∧ t.lineDir ≠ .output) ∧
    (∃ t, step { inPhase tc1 .rDrvLow .low with lineDrv := none } = .next t ∧ t.lineDrv ≠ none) :=
  ⟨⟨_, rfl, by decide⟩, ⟨_, rfl, by decide⟩, ⟨_, rfl, by decide⟩⟩
theorem witness_OutputsAreFunctionsOfTheState :
    measured.measValid = true ∧ (inPhase tc1 .rHs1 .low).measValid = false ∧ (inPhase tc1 .rHs1 .low).lineDir = .input ∧
    { inPhase tc1 .rHighHold .low with lineDir := .output }.lineDir = .output ∧
    { inPhase tc1 .rHighHold .low with lineDir := .output }.lineDrv = some .high ∧
    { inPhase tc1 .rDrvLow .low with lineDir := .output, lineDrv := none }.lineDrv = none := by decide
theorem witness_ReadCompletesWithinItsBound :
    (start coarse (offer 3 0x40010800 2 0 :: List.replicate 171 (quiet .high))).params.Admissible ∧
    coarse.waitBudget = some 1 ∧
    ReadAccepted (start coarse (offer 3 0x40010800 2 0 :: List.replicate 171 (quiet .high))) ∧
    HandleOk hv (start coarse (offer 3 0x40010800 2 0 :: List.replicate 171 (quiet .high))) ∧
    NoResetFor (start coarse (offer 3 0x40010800 2 0 :: List.replicate 171 (quiet .high))) (readBound coarse 1) := by
  refine ⟨coarse_admissible, rfl, by decide, by decide, noResetFor_of_inputs _ _ ?_ ?_⟩
  · show readBound coarse 1 ≤ (offer 3 0x40010800 2 0 :: List.replicate 171 (quiet .high)).length
    rw [List.length_cons, List.length_replicate]; decide
  intro i hi
  rcases List.mem_cons.1 hi with rfl | h
  · rfl
  · rw [List.eq_of_mem_replicate h]; rfl
theorem witness_UnboundedWaitHangs :
    (inPhase tc4 .rHs1 .high).params.waitBudget = none ∧ (inPhase tc4 .rHs1 .high).phase.held = some .high ∧
    NoResetFor { inPhase tc4 .rHs1 .high with inputs := [quiet .high, quiet .high, { quiet .high with rst := true }] } 2 ∧
    LineHeldFor { inPhase tc4 .rHs1 .high with inputs := [quiet .high, quiet .high, { quiet .high with rst := true }] } 2 .high ∧
    (State.inputAt { inPhase tc4 .rHs1 .high with
      inputs := [quiet .high, quiet .high, { quiet .high with rst := true }] } 2).rst = true := by decide
theorem witness_BitIsSampledAfterTheDelay :
    (inPhase coarse .rBitLow .high).phase = .rBitLow ∧ (inPhase coarse .rBitLow .high).input.lineIn = .high ∧
    { inPhase coarse .rBitLow .high with bitIdx := 39 }.bitIdx.toNat < 40 ∧
    NoResetFor { inPhase coarse .rBitLow .high with inputs := [quiet .high, quiet .low, quiet .high] } (coarse.ns + 3) := by
  decide
/-- A pulse one cycle short of a 1, and one that is just a 1. -/
theorem witness_PulseWidthDecidesTheBit :
    (LineHeldFor { inPhase coarse .rBitLow .high with inputs := [quiet .high, quiet .high, quiet .low] } 2 .high ∧
      ∀ k, 2 ≤ k → k < coarse.ns + 3 →
        (State.inputAt { inPhase coarse .rBitLow .high with inputs := [quiet .high, quiet .high, quiet .low] } k).lineIn = .low) ∧
    (LineHeldFor { inPhase coarse .rBitLow .high with inputs := [quiet .high, quiet .high, quiet .high] } 3 .high ∧
      ∀ k, 3 ≤ k → k < coarse.ns + 3 →
        (State.inputAt { inPhase coarse .rBitLow .high with inputs := [quiet .high, quiet .high, quiet .high] } k).lineIn = .low) := by
  refine ⟨⟨by decide, fun k h1 h2 => ?_⟩, ⟨by decide, fun k h1 h2 => ?_⟩⟩
  · have e : k = 2 := by simp only [show coarse.ns = 0 from by decide] at h2; omega
    subst e; decide
  · simp only [show coarse.ns = 0 from by decide] at h2; omega
theorem witness_TempAboveIsStrictlyAboveForty : isAboveThreshold (outputs measured) = some true := by decide
theorem witness_ReadAlarmConflatesStatusAndThreshold : Inv measured ∧ readAlarm (outputs measured) = true :=
  ⟨inv_measured, by decide⟩

end Sys2Proof.Machine.Tests
end

section
/-! Proofs for the family of the spec's scope, `00_scope.md`: `Ncyc` counts whole ticks (rule R2), and each of the four
rows that start a delay loads the counter with it. -/

namespace Sys2Proof

/-! ### `Ncyc` -/

/-- A request shorter than a tick is counted for no cycle. -/
theorem ncyc_eq_zero_of_lt {p : Params} {us : Nat} (h : us < p.tickUs) : ncyc p us = 0 := by
  rw [ncyc, Nat.div_eq_of_lt h, Nat.zero_mul]

/-- The ticks counted are the most that fit in the request. -/
theorem ncyc_eq_floor_mul {p : Params} (us : Nat) (h : 1 ≤ p.tickUs) :
    ∃ k, k * p.tickUs ≤ us ∧ us < (k + 1) * p.tickUs ∧ ncyc p us = k * p.cyclesPerTick := by
  refine ⟨us / p.tickUs, Nat.div_mul_le_self us p.tickUs, ?_, rfl⟩
  rw [Nat.succ_mul]
  exact Nat.lt_div_mul_add h

/-- What a delay falls short of its request by, in cycles times ticks, is the remainder of the request. -/
theorem ncyc_mul_tickUs_add_mod (p : Params) (us : Nat) :
    ncyc p us * p.tickUs + us % p.tickUs * p.cyclesPerTick = us * p.cyclesPerTick := by
  calc ncyc p us * p.tickUs + us % p.tickUs * p.cyclesPerTick
      = (us / p.tickUs * p.tickUs + us % p.tickUs) * p.cyclesPerTick := by rw [ncyc]; ring
    _ = us * p.cyclesPerTick := by rw [Nat.div_add_mod']

namespace Machine

/-! ### The rows that start a delay -/

/-- DELAY loads the counter with `Ncyc` of its operand (rule R102). -/
theorem exec_delay (port : PortId) (pin : PinMask) (us : Micros) (s : State) :
    exec (.delay port pin us) s = .next ((s.nextCycle.loadDelay (ncyc s.params us.toNat)).goto .dWait) := rfl

/-- R_DRV_LOW drives low and loads the start-low delay (rule R134). -/
theorem exec_rDrvLow (s : State) :
    exec .rDrvLow s = .next (((s.nextCycle.driveLine .low).loadDelay s.params.nl).goto .rLowHold) := rfl

/-- R_DRV_HIGH drives high and loads the release delay (rule R136). -/
theorem exec_rDrvHigh (s : State) :
    exec .rDrvHigh s = .next (((s.nextCycle.driveLine .high).loadDelay s.params.nr).goto .rHighHold) := rfl

/-- R_BIT_LOW is a wait while the line is low, whose exit loads the sample delay (rule R143). -/
theorem exec_rBitLow (s : State) :
    exec .rBitLow s = .next (s.boundedWait .low fun t => (t.loadDelay s.params.ns).goto .rBitDly) := rfl

/-- A wait that finds the line away from the held level exits, whatever is left of its budget (rule R139). -/
theorem State.boundedWait_of_ne {s : State} {held : Level} (h : s.lineRead ≠ held) (exit : State → State) :
    s.boundedWait held exit = exit s.nextCycle.clearWait := if_pos h

/-- On a high line R_BIT_LOW exits to R_BIT_DLY with the sample delay loaded. -/
theorem exec_rBitLow_of_high {s : State} (h : s.input.lineIn = .high) :
    exec .rBitLow s = .next ((s.nextCycle.clearWait.loadDelay s.params.ns).goto .rBitDly) := by
  have hne : s.lineRead ≠ .low := by simp [State.lineRead, h]
  rw [exec_rBitLow, State.boundedWait_of_ne hne]

end Machine

/-- Settles O14: the bounds of the floor, the shortfall and the zero are facts about `ncyc`; the four loads are read off
the rows that start a delay. -/
theorem ncycCountsWholeTicks : Obligations.NcycCountsWholeTicks := by
  intro p us hp
  refine ⟨ncyc_eq_floor_mul us hp, ncyc_mul_tickUs_add_mod p us, ncyc_eq_zero_of_lt, ?_⟩
  rintro s port pin u rfl
  exact ⟨⟨_, Machine.exec_delay port pin u s, rfl⟩, ⟨_, Machine.exec_rDrvLow s, rfl⟩,
    ⟨_, Machine.exec_rDrvHigh s, rfl⟩, fun h => ⟨_, Machine.exec_rBitLow_of_high h, rfl⟩⟩

end Sys2Proof
end

section
/-! Proofs for the family of the spec's state, `10_state.md`: `STATUS`, `DONE`, `MEAS_VALID`, `H_RAW` and `T_RAW` (rules
R29 to R32). One lemma, `reportCase_of_step`, says what a cycle without reset can do to these registers; each
obligation is read off its six cases. -/

namespace Sys2Proof

namespace Machine

/-! ### The row a cycle runs -/

/-- The command of this cycle's command inputs is accepted in IDLE, with operation code `op` (rules R81, R91). -/
abbrev State.AcceptsOp (s : State) (op : OpCode) : Prop :=
  s.phase = .idle ∧ s.input.cmdValid = true ∧ s.input.cmdOp = op

/-- The command word on the inputs decodes to the command of its fields. -/
theorem decodeCmd_cmdWordOf (i : Input) : decodeCmd (cmdWordOf i) = cmdInstr i.cmdOp i.cmdPort i.cmdPin i.cmdUs := by
  obtain ⟨hop, hport, hpin, hus⟩ := cmdFields_encodeCmd i.cmdOp i.cmdPort i.cmdPin i.cmdUs
  rw [decodeCmd, cmdWordOf, hop, hport, hpin, hus]

/-- A cycle that accepts a command runs it (rules R7, R91). -/
theorem step_of_accepts {s : State} (hr : s.input.rst = false) (hp : s.phase = .idle) (hv : s.input.cmdValid = true) :
    step s = exec (cmdInstr s.input.cmdOp s.input.cmdPort s.input.cmdPin s.input.cmdUs) s := by
  simp [step, State.fetch, State.accepts, hr, hp, hv, decodeCmd_cmdWordOf]

/-- IDLE with no command offered does only what every cycle does (rule R7). -/
theorem step_of_idle_quiet {s : State} (hr : s.input.rst = false) (hp : s.phase = .idle) (hv : s.input.cmdValid = false) :
    step s = .next s.nextCycle := by
  simp [step, State.fetch, State.accepts, hr, hp, hv, Phase.toInstr, exec, execIdle]

/-- A cycle outside IDLE runs the row of its phase, whatever the command inputs (rules R7, R91). -/
theorem step_of_busy {s : State} (hr : s.input.rst = false) (hp : s.phase ≠ .idle) : step s = exec s.phase.toInstr s := by
  simp [step, State.fetch, State.accepts, hr, hp]

/-- SETOUT's effect, where its handle is not refused (rule R114). -/
theorem exec_setout_next_iff (port : PortId) (pin : PinMask) (us : Micros) (s t : State) :
    exec (.setout port pin us) s = .next t ↔ HandleOk ⟨port, pin⟩ s ∧
      ((s.nextCycle.setOutput ⟨port, pin⟩).latchHandle ⟨port, pin⟩).complete = t := by
  rw [exec, execSetout, onLine_next_iff]

/-- SETIN's effect, where its handle is not refused (rule R115). -/
theorem exec_setin_next_iff (port : PortId) (pin : PinMask) (us : Micros) (s t : State) :
    exec (.setin port pin us) s = .next t ↔ HandleOk ⟨port, pin⟩ s ∧
      ((s.nextCycle.setInput ⟨port, pin⟩).latchHandle ⟨port, pin⟩).complete = t := by
  rw [exec, execSetin, onLine_next_iff]

/-- READ's two effects, where its handle is not refused (rules R131, R132). -/
theorem exec_read_next_iff (port : PortId) (pin : PinMask) (us : Micros) (s t : State) :
    exec (.read port pin us) s = .next t ↔ HandleOk ⟨port, pin⟩ s ∧
      (if Handle.valid ⟨port, pin⟩ then
        ((s.nextCycle.clearMeasValid.latchHandle ⟨port, pin⟩).freshPayload).goto .rSetout
      else s.nextCycle.clearMeasValid.completeRead s.params.invalidHandleStatus) = t := by
  rw [exec, execRead, onLine_next_iff]

/-- R_VALIDATE with a good checksum publishes the payload and completes with Ok (rule R147). -/
theorem step_publishes {s : State} (hr : s.input.rst = false) (hp : s.phase = .rValidate)
    (good : checksumOk s.payload = true) :
    step s = .next ((s.nextCycle.publish s.payload).completeRead .ok) := by
  rw [step_of_busy hr (by simp [hp]), hp, Phase.toInstr, exec, execRValidate, if_pos good]

/-! ### The cycles in which a READ goes on -/

/-- `STATUS` and the measurement registers are as before. -/
structure KeepsResult (s t : State) : Prop where
  status : t.status = s.status
  measValid : t.measValid = s.measValid
  hRaw : t.hRaw = s.hRaw
  tRaw : t.tRaw = s.tRaw

/-- The result is kept, a READ is in progress as before, and outside a READ the payload is kept. -/
structure KeepsReport (s t : State) : Prop extends KeepsResult s t where
  reading : t.phase.isRead = s.phase.isRead
  payload : s.phase.isRead = false → t.payload = s.payload

/-- A READ in progress goes on: `DONE` at its default, nothing reported yet. -/
structure ReadGoesOn (s t : State) : Prop extends KeepsResult s t where
  reading : t.phase.isRead = true
  done : t.done = false

/-- A READ that goes on reports nothing new. -/
theorem ReadGoesOn.keepsReport {s t : State} (h : ReadGoesOn s t) (hs : s.phase.isRead = true) : KeepsReport s t :=
  { h with reading := h.reading.trans hs.symm, payload := fun hn => absurd hs (by simp [hn]) }

/-- A counting phase of a READ goes on when its exit does. -/
theorem readGoesOn_countDown {s : State} {exit : State → State} (hs : s.phase.isRead = true)
    (hexit : ReadGoesOn s (exit s.nextCycle)) : ReadGoesOn s (s.countDown exit) := by
  obtain ⟨-, e⟩ | ⟨-, e⟩ := s.countDown_cases exit <;> rw [e]
  · exact hexit
  · exact ⟨⟨rfl, rfl, rfl, rfl⟩, hs, rfl⟩

/-- A wait of a READ goes on when its exit does: a time-out is still a phase of the READ. -/
theorem readGoesOn_boundedWait {s : State} {held : Level} {exit : State → State} (hs : s.phase.isRead = true)
    (hexit : ReadGoesOn s (exit s.nextCycle.clearWait)) : ReadGoesOn s (s.boundedWait held exit) := by
  obtain ⟨-, e⟩ | ⟨-, -, e⟩ | ⟨-, -, e⟩ := s.boundedWait_cases held exit <;> rw [e]
  · exact hexit
  · exact ⟨⟨rfl, rfl, rfl, rfl⟩, rfl, rfl⟩
  · exact ⟨⟨rfl, rfl, rfl, rfl⟩, hs, rfl⟩

/-- In the phases of a READ before R_VALIDATE and R_TIMEOUT, the READ goes on (rules R133 to R146). -/
theorem readGoesOn_of_exec {s t : State} (hs : s.phase.isRead = true) (hv : s.phase ≠ .rValidate)
    (ht : s.phase ≠ .rTimeout) (h : exec s.phase.toInstr s = .next t) : ReadGoesOn s t := by
  cases hp : s.phase <;> rw [hp] at h
  case idle | dWait => simp [hp, Phase.isRead] at hs
  case rValidate => exact absurd hp hv
  case rTimeout => exact absurd hp ht
  case rSetout | rRelease => obtain rfl := Host.Outcome.next.inj h; exact ⟨by constructor <;> simp, rfl, by simp⟩
  case rDrvLow | rDrvHigh => obtain rfl := Host.Outcome.next.inj h; exact ⟨⟨rfl, rfl, rfl, rfl⟩, rfl, rfl⟩
  case rLowHold | rHighHold | rBitDly =>
    obtain rfl := Host.Outcome.next.inj h
    exact readGoesOn_countDown hs ⟨⟨rfl, rfl, rfl, rfl⟩, rfl, rfl⟩
  case rHs1 | rHs2 | rHs3 | rBitLow =>
    obtain rfl := Host.Outcome.next.inj h
    exact readGoesOn_boundedWait hs ⟨⟨rfl, rfl, rfl, rfl⟩, rfl, rfl⟩
  case rBitHigh =>
    obtain rfl := Host.Outcome.next.inj h
    refine readGoesOn_boundedWait hs ⟨⟨rfl, rfl, rfl, rfl⟩, ?_, rfl⟩
    simp only [State.goto_phase]
    split <;> rfl
  case rBitSample =>
    simp only [Phase.toInstr, exec, execRBitSample] at h
    split at h
    · obtain rfl := Host.Outcome.next.inj h
      exact ⟨⟨rfl, rfl, rfl, rfl⟩, rfl, rfl⟩
    · cases h

/-! ### What a cycle does to the report -/

/-- What a cycle without reset does to `STATUS`, `DONE`, `MEAS_VALID`, `H_RAW` and `T_RAW`: it reports nothing new, or it
accepts a READ (rules R131, R132), or it ends one (rules R147, R148). -/
inductive ReportCase (s t : State) : Prop
  | kept (keeps : KeepsReport s t)
      (done : t.done = true ↔ (s.AcceptsOp 1 ∨ s.AcceptsOp 2) ∨ (s.phase = .dWait ∧ s.delayCnt = 0))
      (noRead : ¬ s.AcceptsOp 3) (noValidate : s.phase ≠ .rValidate) (noTimeout : s.phase ≠ .rTimeout)
  | readStarts (read : s.AcceptsOp 3) (valid : Handle.valid ⟨s.input.cmdPort, s.input.cmdPin⟩ = true)
      (next : t = ((s.nextCycle.clearMeasValid.latchHandle ⟨s.input.cmdPort, s.input.cmdPin⟩).freshPayload).goto .rSetout)
  | readFails (read : s.AcceptsOp 3) (invalid : Handle.valid ⟨s.input.cmdPort, s.input.cmdPin⟩ = false)
      (next : t = s.nextCycle.clearMeasValid.completeRead s.params.invalidHandleStatus)
  | publishes (phase : s.phase = .rValidate) (good : checksumOk s.payload = true)
      (next : t = (s.nextCycle.publish s.payload).completeRead .ok)
  | rejects (phase : s.phase = .rValidate) (bad : checksumOk s.payload = false)
      (next : t = s.nextCycle.completeRead .error)
  | timesOut (phase : s.phase = .rTimeout)
      (next : t = (s.nextCycle.setInput s.handle).completeRead .timeout)

/-- A cycle in IDLE that accepts no READ reports nothing new. -/
theorem reportCase_of_idle {s t : State} (hp : s.phase = .idle) (hread : ¬ s.AcceptsOp 3) (hk : KeepsReport s t)
    (hdone : t.done = true ↔ s.AcceptsOp 1 ∨ s.AcceptsOp 2) : ReportCase s t :=
  .kept hk (by simp [hdone, hp]) hread (by simp [hp]) (by simp [hp])

/-- DELAY starts D_WAIT, SETOUT and SETIN complete at once, and READ starts or fails (rule R81). -/
theorem reportCase_of_command {s t : State} (hp : s.phase = .idle) (hv : s.input.cmdValid = true)
    (h : exec (cmdInstr s.input.cmdOp s.input.cmdPort s.input.cmdPin s.input.cmdUs) s = .next t) : ReportCase s t := by
  unfold cmdInstr at h
  split_ifs at h with h0 h1 h2
  · obtain rfl := Host.Outcome.next.inj h
    exact reportCase_of_idle hp (by simp [h0]) ⟨⟨rfl, rfl, rfl, rfl⟩, by simp [hp, Phase.isRead], fun _ => rfl⟩
      (by simp [h0])
  · obtain ⟨-, rfl⟩ := (exec_setout_next_iff ..).1 h
    exact reportCase_of_idle hp (by simp [h1]) ⟨by constructor <;> simp, by simp [hp], by simp⟩
      (by simp [State.AcceptsOp, h1, hp, hv])
  · obtain ⟨-, rfl⟩ := (exec_setin_next_iff ..).1 h
    exact reportCase_of_idle hp (by simp [h2]) ⟨by constructor <;> simp, by simp [hp], by simp⟩
      (by simp [State.AcceptsOp, h2, hp, hv])
  · have h3 : s.input.cmdOp = 3 := by bv_omega
    obtain ⟨-, rfl⟩ := (exec_read_next_iff ..).1 h
    cases hh : Handle.valid ⟨s.input.cmdPort, s.input.cmdPin⟩
    · exact .readFails ⟨hp, hv, h3⟩ hh rfl
    · exact .readStarts ⟨hp, hv, h3⟩ hh rfl

/-- D_WAIT completes at zero, else counts, and is no READ (rule R103). -/
theorem reportCase_of_dWait {s : State} (hd : s.phase = .dWait) : ReportCase s (s.countDown State.complete) := by
  obtain ⟨hc, e⟩ | ⟨hc, e⟩ := s.countDown_cases State.complete <;> rw [e]
  · exact .kept ⟨⟨rfl, rfl, rfl, rfl⟩, by simp [hd, Phase.isRead], fun _ => rfl⟩ (by simp [hd, hc]) (by simp [hd])
      (by simp [hd]) (by simp [hd])
  · exact .kept ⟨⟨rfl, rfl, rfl, rfl⟩, rfl, fun _ => rfl⟩ (by simp [hd, hc]) (by simp [hd]) (by simp [hd])
      (by simp [hd])

/-- R_VALIDATE publishes or rejects the payload by its checksum (rule R147). -/
theorem reportCase_of_rValidate {s t : State} (hp : s.phase = .rValidate) (h : exec .rValidate s = .next t) :
    ReportCase s t := by
  obtain rfl := Host.Outcome.next.inj h
  by_cases good : checksumOk s.payload = true
  · exact if_pos good ▸ .publishes hp good rfl
  · exact if_neg good ▸ .rejects hp (by simpa using good) rfl

/-- Every cycle without reset is one of the six cases: by the command in IDLE, else by the phase (rule R7). -/
theorem reportCase_of_step {s t : State} (hr : s.input.rst = false) (h : step s = .next t) : ReportCase s t := by
  by_cases hp : s.phase = .idle
  · cases hv : s.input.cmdValid
    · obtain rfl := Host.Outcome.next.inj ((step_of_idle_quiet hr hp hv).symm.trans h)
      exact reportCase_of_idle hp (by simp [hv]) ⟨⟨rfl, rfl, rfl, rfl⟩, rfl, fun _ => rfl⟩ (by simp [hv])
    · exact reportCase_of_command hp hv (step_of_accepts hr hp hv ▸ h)
  rw [step_of_busy hr hp] at h
  by_cases hd : s.phase = .dWait
  · rw [hd] at h
    obtain rfl := Host.Outcome.next.inj h
    exact reportCase_of_dWait hd
  by_cases hv : s.phase = .rValidate
  · exact reportCase_of_rValidate hv (by rwa [hv] at h)
  by_cases ht : s.phase = .rTimeout
  · rw [ht] at h
    exact .timesOut ht (Host.Outcome.next.inj h).symm
  have hs : s.phase.isRead = true := by simp [Phase.isRead, hp, hd]
  have hon := readGoesOn_of_exec hs hv ht h
  exact .kept (hon.keepsReport hs) (by simp [hon.done, hp, hd]) (by simp [hp]) hv ht

/-- No cycle reads `DONE`: every row starts from its default (rules R7, R30). -/
theorem step_set_done (s : State) (d : Bool) : step { s with done := d } = step s := rfl

/-! ### The measurement of the last READ -/

/-- `MEAS_VALID` shows that the last READ ended Ok and none is in progress, and then the registers hold its measurement
(rule R31). -/
structure ShowsLastRead (s : State) : Prop where
  valid_iff : s.measValid = true ↔ s.status = .ok ∧ s.phase.isRead = false
  measured : s.measValid = true → s.hRaw = some (humidityOf s.payload) ∧ s.tRaw = some (temperatureOf s.payload)

/-- The invariant says it of every state a run reaches. -/
theorem Inv.showsLastRead {s : State} (h : Inv s) : ShowsLastRead s where
  valid_iff := by
    refine ⟨fun hm => ⟨(h.measured hm).1, ?_⟩, fun ⟨hok, hr⟩ => h.outcome hok hr⟩
    by_contra hr
    simp [h.pending (by simpa using hr)] at hm
  measured hm := (h.measured hm).2.2

/-- A state with no valid measurement whose status is not Ok, or that is in a READ, shows nothing. -/
theorem showsLastRead_of_invalid {s : State} (hm : s.measValid = false)
    (h : s.status ≠ .ok ∨ s.phase.isRead = true) : ShowsLastRead s where
  valid_iff := by simpa [hm, imp_iff_not_or] using h
  measured hv := by simp [hm] at hv

/-- A cycle that reports nothing new goes on showing the last READ. -/
theorem ShowsLastRead.of_keepsReport {s t : State} (h : ShowsLastRead s) (hk : KeepsReport s t) : ShowsLastRead t where
  valid_iff := by rw [hk.measValid, hk.status, hk.reading, h.valid_iff]
  measured hm := by
    have hs : s.measValid = true := hk.measValid ▸ hm
    rw [hk.hRaw, hk.tRaw, hk.payload (h.valid_iff.1 hs).2]
    exact h.measured hs

/-- After a cycle without reset from a state that meets the invariant, `MEAS_VALID` shows the last READ. -/
theorem ReportCase.showsLastRead {s t : State} (h : ReportCase s t) (hi : Inv s) : ShowsLastRead t := by
  cases h with
  | kept keeps => exact hi.showsLastRead.of_keepsReport keeps
  | readStarts _ _ next => exact next ▸ showsLastRead_of_invalid (by simp) (.inr rfl)
  | readFails _ _ next => exact next ▸ showsLastRead_of_invalid (by simp) (.inl hi.admissible.invalidStatus)
  | publishes _ _ next => exact next ▸ ⟨by simp [Phase.isRead], fun _ => ⟨rfl, rfl⟩⟩
  | rejects phase _ next =>
    exact next ▸ showsLastRead_of_invalid (hi.pending (by simp [phase, Phase.isRead])) (.inl nofun)
  | timesOut phase next =>
    exact next ▸ showsLastRead_of_invalid (by simp [hi.pending (by simp [phase, Phase.isRead])]) (.inl nofun)

/-! ### The two numbers of a payload -/

/-- Two bytes make up a 16-bit number. -/
theorem ofNat_two_bytes_toNat (hi lo : Byte) :
    (BitVec.ofNat 16 (hi.toNat * 256 + lo.toNat)).toNat = hi.toNat * 256 + lo.toNat := by
  have := hi.isLt
  have := lo.isLt
  rw [BitVec.toNat_ofNat]
  omega

end Machine

open Machine

/-- Settles O48: the six cases of a cycle, of which three write `STATUS`, each with `DONE`. -/
theorem statusIsWrittenOnlyByReadCompletion : Obligations.StatusIsWrittenOnlyByReadCompletion := by
  refine ⟨rfl, fun st => by cases st <;> rfl, fun s t hr h => ?_⟩
  cases reportCase_of_step hr h with
  | kept keeps => exact .inl keeps.status
  | readStarts _ _ next => exact .inl (by simp [next])
  | readFails read invalid next =>
    obtain ⟨hp, hv, hop⟩ := read
    exact .inr ⟨by simp [next], .inl ⟨hp, hv, hop, invalid, by simp [next]⟩⟩
  | publishes phase good next => exact .inr ⟨by simp [next], .inr (.inl ⟨phase, by simp [next, good]⟩)⟩
  | rejects phase bad next => exact .inr ⟨by simp [next], .inr (.inl ⟨phase, by simp [next, bad]⟩)⟩
  | timesOut phase next => exact .inr ⟨by simp [next], .inr (.inr ⟨phase, by simp [next]⟩)⟩

/-- Settles O49: of the six cases of a cycle only the one that publishes writes the two registers. -/
theorem measurementIsWrittenOnlyOnSuccess : Obligations.MeasurementIsWrittenOnlyOnSuccess := by
  refine ⟨rfl, rfl, fun s t hr h => ?_⟩
  cases reportCase_of_step hr h with
  | kept keeps _ _ noValidate => simp [noValidate, keeps.hRaw, keeps.tRaw]
  | readStarts read _ next => simp [read.1, next]
  | readFails read _ next => simp [read.1, next]
  | publishes phase good next =>
    rw [if_pos ⟨phase, good⟩, next]
    exact ⟨⟨_, rfl, ofNat_two_bytes_toNat ..⟩, ⟨_, rfl, ofNat_two_bytes_toNat ..⟩⟩
  | rejects _ bad next => simp [bad, next]
  | timesOut phase next => simp [phase, next]

/-- Settles O50: the next value is read off the six cases of a cycle, the publication is `step_publishes`, and what it
shows under the invariant is `ReportCase.showsLastRead`. -/
theorem measValidFollowsTheLastRead : Obligations.MeasValidFollowsTheLastRead := by
  refine ⟨rfl, fun s t hr h => ?_⟩
  have hc := reportCase_of_step hr h
  refine ⟨?_, ?_, fun hi => ⟨(hc.showsLastRead hi).valid_iff, (hc.showsLastRead hi).measured⟩⟩
  · cases hc with
    | kept keeps _ noRead noValidate => rw [if_neg fun hv => noValidate hv.1, if_neg noRead, keeps.measValid]
    | readStarts read _ next => simp [read, next]
    | readFails read _ next => simp [read, next]
    | publishes phase good next => simp [phase, good, next]
    | rejects phase bad next => simp [phase, bad, next]
    | timesOut phase next => simp [phase, next]
  · intro hp good
    obtain rfl := Host.Outcome.next.inj ((step_publishes hr hp good).symm.trans h)
    exact ⟨rfl, rfl, rfl⟩

/-- Settles O51: of the six cases of a cycle, READ's start alone never completes, four always do, and the first says when
it does. -/
theorem doneIsACompletionPulse : Obligations.DoneIsACompletionPulse := by
  refine ⟨rfl, step_set_done, fun s t hr h => ?_⟩
  cases reportCase_of_step hr h with
  | kept _ done noRead noValidate noTimeout =>
    have noFailure : ¬ (s.phase = .idle ∧ s.input.cmdValid = true ∧ s.input.cmdOp = 3 ∧
        Handle.valid ⟨s.input.cmdPort, s.input.cmdPin⟩ = false) := fun ⟨hp, hv, hop, _⟩ => noRead ⟨hp, hv, hop⟩
    simp only [done, noFailure, noValidate, noTimeout, or_false, ← and_or_left]
  | readStarts read valid next => simp [read, valid, next]
  | readFails read invalid next => simp [read, invalid, next]
  | publishes phase _ next => simp [phase, next]
  | rejects phase _ next => simp [phase, next]
  | timesOut phase next => simp [phase, next]

end Sys2Proof
end

section
/-! Proofs for the family of the spec's memory, `20_memory.md`: the bytes of a frame and the two big-endian quantities it
carries (rule R65). -/

namespace Sys2Proof.Machine

/-! ### The bytes of a frame -/

/-- The byte of a frame that begins at bit `i`, as a number. -/
theorem frameByte_toNat (f : Frame) (i : Nat) : (f.extractLsb' i 8).toNat = f.toNat / 2 ^ i % 2 ^ 8 := by
  rw [BitVec.extractLsb'_toNat, Nat.shiftRight_eq_div_pow]

/-- The five bytes of a frame's payload, from the top of the frame down. -/
theorem Payload.ofFrame_toNat (f : Frame) :
    (Payload.ofFrame f).b0.toNat = f.toNat / 2 ^ 32 ∧ (Payload.ofFrame f).b1.toNat = f.toNat / 2 ^ 24 % 2 ^ 8 ∧
    (Payload.ofFrame f).b2.toNat = f.toNat / 2 ^ 16 % 2 ^ 8 ∧ (Payload.ofFrame f).b3.toNat = f.toNat / 2 ^ 8 % 2 ^ 8 ∧
    (Payload.ofFrame f).b4.toNat = f.toNat % 2 ^ 8 := by
  have top : f.toNat / 2 ^ 32 < 2 ^ 8 := Nat.div_lt_of_lt_mul f.isLt
  have bottom := frameByte_toNat f 0
  rw [pow_zero, Nat.div_one] at bottom
  exact ⟨(frameByte_toNat f 32).trans (Nat.mod_eq_of_lt top), frameByte_toNat f 24, frameByte_toNat f 16,
    frameByte_toNat f 8, bottom⟩

/-! ### The two quantities -/

/-- The humidity as a number: no bit of the two bytes is lost. -/
theorem humidityOf_toNat (b : Payload) : (humidityOf b).toNat = b.b0.toNat * 256 + b.b1.toNat :=
  ofNat_two_bytes_toNat ..

/-- The temperature as a number: no bit of the two bytes is lost. -/
theorem temperatureOf_toNat (b : Payload) : (temperatureOf b).toNat = b.b2.toNat * 256 + b.b3.toNat :=
  ofNat_two_bytes_toNat ..

/-- Two neighbouring bytes of a frame, the upper one the more significant, are the 16 bits from the lower one's first
(rule R65). -/
theorem frameBytes_bigEndian (f : Frame) (i : Nat) :
    BitVec.ofNat 16 ((f.extractLsb' (i + 8) 8).toNat * 256 + (f.extractLsb' i 8).toNat) = f.extractLsb' i 16 := by
  apply BitVec.eq_of_toNat_eq
  rw [ofNat_two_bytes_toNat, frameByte_toNat, frameByte_toNat, BitVec.extractLsb'_toNat, Nat.shiftRight_eq_div_pow,
    pow_add, ← Nat.div_div_eq_div_mul]
  omega

/-- The humidity is bits 39:24 of the frame. -/
theorem humidityOf_ofFrame (f : Frame) : humidityOf (Payload.ofFrame f) = f.extractLsb' 24 16 :=
  frameBytes_bigEndian f 24

/-- The temperature is bits 23:8 of the frame. -/
theorem temperatureOf_ofFrame (f : Frame) : temperatureOf (Payload.ofFrame f) = f.extractLsb' 8 16 :=
  frameBytes_bigEndian f 8

end Sys2Proof.Machine

namespace Sys2Proof

open Machine

/-- Settles O43: the bytes are `Payload.ofFrame_toNat`, and each quantity is two neighbouring bytes of the frame
(`frameBytes_bigEndian`). -/
theorem frameIsBigEndian : Obligations.FrameIsBigEndian := by
  intro f
  obtain ⟨h0, h1, h2, h3, h4⟩ := Payload.ofFrame_toNat f
  exact ⟨h0, h1, h2, h3, h4, humidityOf_ofFrame f, temperatureOf_ofFrame f,
    fun b => ⟨humidityOf_toNat b, temperatureOf_toNat b⟩⟩

end Sys2Proof
end

section
/-! Proofs for the family of the spec's encoding, `30_encoding.md`: a command word reads as its table (rules R80, R81), the
ignored fields have no effect (rule R82), and commands are taken only in IDLE (rule R91). -/

namespace Sys2Proof

/-! ### The fields of a command word by number -/

/-- The command of each operation code (rule R81). -/
theorem cmdInstr_of_op (port : PortId) (pin : PinMask) (us : Micros) :
    cmdInstr 0 port pin us = .delay port pin us ∧ cmdInstr 1 port pin us = .setout port pin us ∧
    cmdInstr 2 port pin us = .setin port pin us ∧ cmdInstr 3 port pin us = .read port pin us := ⟨rfl, rfl, rfl, rfl⟩

/-- A field cut out of a word is the word's number shifted down to it. -/
theorem extractLsb'_eq_ofNat_div {n : Nat} (w : BitVec n) (start len : Nat) :
    w.extractLsb' start len = BitVec.ofNat len (w.toNat / 2 ^ start) := by
  rw [← Nat.shiftRight_eq_div_pow]
  rfl

/-- A command word decodes by the numbers in its fields (rule R80's table). -/
theorem decodeCmd_eq_cmdInstr_ofNat (w : CmdWord) :
    decodeCmd w = cmdInstr (BitVec.ofNat 2 (w.toNat / 2 ^ 80)) (BitVec.ofNat 32 (w.toNat / 2 ^ 48))
      (BitVec.ofNat 16 (w.toNat / 2 ^ 32)) (BitVec.ofNat 32 w.toNat) := by
  have us : cmdUsOf w = BitVec.ofNat 32 w.toNat := by
    rw [cmdUsOf, extractLsb'_eq_ofNat_div, pow_zero, Nat.div_one]
  rw [decodeCmd, us, cmdOpOf, cmdPortOf, cmdPinOf, extractLsb'_eq_ofNat_div, extractLsb'_eq_ofNat_div,
    extractLsb'_eq_ofNat_div]

namespace Machine

/-! ### IDLE with a command offered -/

/-- Accepting a command runs the command of the input fields. -/
theorem acceptCommand_eq_exec (i : Input) (s : State) :
    acceptCommand i s = exec (cmdInstr i.cmdOp i.cmdPort i.cmdPin i.cmdUs) s := by
  unfold acceptCommand cmdInstr
  split_ifs <;> rfl

/-- The row IDLE, where a command is offered, is that command (rule R91). -/
theorem exec_idle_of_cmdValid {s : State} (hv : s.input.cmdValid = true) :
    exec .idle s = exec (cmdInstr s.input.cmdOp s.input.cmdPort s.input.cmdPin s.input.cmdUs) s := by
  rw [exec, execIdle, if_pos hv, acceptCommand_eq_exec]

/-! ### Cycles that differ only in the command inputs -/

section SameLine

variable (s : State) {i c : Input} (rest : List Input) (hline : c.lineIn = i.lineIn)
include hline

/-- The level read is that of the input record. -/
theorem State.lineRead_congr_input :
    State.lineRead { s with inputs := c :: rest } = State.lineRead { s with inputs := i :: rest } := hline

/-- A wait looks at the input record for the line's level alone (rule R139). -/
theorem State.boundedWait_congr_input (held : Level) (exit : State → State) :
    State.boundedWait held exit { s with inputs := c :: rest } =
      State.boundedWait held exit { s with inputs := i :: rest } := by
  unfold State.boundedWait
  rw [State.lineRead_congr_input s rest hline]
  rfl

/-- The row of a phase other than IDLE looks at the input record for the line's level alone: only the waits and the
sample look at it at all. -/
theorem exec_toInstr_congr_input {p : Phase} (hp : p ≠ .idle) :
    exec p.toInstr { s with inputs := c :: rest } = exec p.toInstr { s with inputs := i :: rest } := by
  cases p
  case idle => exact absurd rfl hp
  case rHs1 | rHs2 | rHs3 | rBitLow | rBitHigh =>
    exact congrArg Host.Outcome.next (State.boundedWait_congr_input s rest hline _ _)
  case rBitSample =>
    simp only [Phase.toInstr, exec, execRBitSample, State.lineRead_congr_input s rest hline]
    rfl
  all_goals rfl

/-- Outside an accepted command, a cycle looks at the input record for reset and the line's level alone (rule R91). -/
theorem step_congr_input (hrst : c.rst = i.rst)
    (h : s.phase ≠ .idle ∨ (i.cmdValid = false ∧ c.cmdValid = false)) :
    step { s with inputs := c :: rest } = step { s with inputs := i :: rest } := by
  cases hir : i.rst
  case true => simp [step, hrst, hir, State.resetCycle]
  case false =>
    have hi : (State.input { s with inputs := i :: rest }).rst = false := hir
    have hc : (State.input { s with inputs := c :: rest }).rst = false := hrst.trans hir
    by_cases hp : s.phase = .idle
    · obtain ⟨hvi, hvc⟩ := h.resolve_left (not_not_intro hp)
      rw [step_of_idle_quiet hc hp hvc, step_of_idle_quiet hi hp hvi]
      rfl
    · rw [step_of_busy hc hp, step_of_busy hi hp]
      exact exec_toInstr_congr_input s rest hline hp

end SameLine

/-! ### The way back to IDLE -/

/-- D_WAIT goes back to IDLE only by completing (rule R103). -/
theorem done_of_dWait_to_idle {s t : State} (hp : s.phase = .dWait) (h : exec .dWait s = .next t)
    (ht : t.phase = .idle) : t.done = true := by
  obtain rfl := Host.Outcome.next.inj h
  obtain ⟨-, e⟩ | ⟨-, e⟩ := s.countDown_cases State.complete <;> rw [e] at ht ⊢
  · rfl
  · exact absurd (hp.symm.trans ht) nofun

/-- Without reset, a busy block goes back to IDLE only by completing (rule R91). -/
theorem done_of_busy_to_idle {s t : State} (hr : s.input.rst = false) (hp : s.phase ≠ .idle) (h : step s = .next t)
    (ht : t.phase = .idle) : t.done = true := by
  cases reportCase_of_step hr h with
  | kept keeps =>
    have hd : s.phase = .dWait := by
      have hnr : s.phase.isRead = false := by rw [← keeps.reading, ht]; rfl
      simpa [Phase.isRead, hp] using hnr
    rw [step_of_busy hr hp, hd] at h
    exact done_of_dWait_to_idle hd h ht
  | readStarts read | readFails read => exact absurd read.1 hp
  | publishes _ _ next | rejects _ _ next | timesOut _ next => rw [next, State.completeRead_done]

end Machine

open Machine

/-- Settles O3: the word decodes by its fields' numbers (`decodeCmd_eq_cmdInstr_ofNat`), and the number above bit 80 is
the operation code. -/
theorem commandWordReadsAsItsTable : Obligations.CommandWordReadsAsItsTable := by
  intro w port pin us
  obtain ⟨delay, setout, setin, read⟩ := cmdInstr_of_op port pin us
  rw [decodeCmd_eq_cmdInstr_ofNat w]
  exact ⟨fun h => by rw [h]; exact delay, fun h => by rw [h]; exact setout, fun h => by rw [h]; exact setin,
    fun h => by rw [h]; exact read⟩

/-- Settles O12: in IDLE both the step and the row run the offered command; else the command inputs are not looked at
(`step_congr_input`), and the way back to IDLE is a completion (`done_of_busy_to_idle`). -/
theorem commandsAreTakenOnlyInIdle : Obligations.CommandsAreTakenOnlyInIdle := by
  refine ⟨fun s hp hr hv => ?_, fun s _ _ rest hrst hline h => step_congr_input s rest hline hrst h,
    fun s t hp h ht => ?_⟩
  · have hstep := step_of_accepts hr hp hv
    exact ⟨hstep.trans (congrArg (exec · s) (decodeCmd_cmdWordOf s.input).symm),
      (exec_idle_of_cmdValid hv).trans hstep.symm⟩
  · cases hr : s.input.rst
    · exact .inr (done_of_busy_to_idle hr hp h ht)
    · exact .inl rfl

/-- Settles O6: the meaning of each command does not use the arguments that stand for its ignored fields, so the two
sides of each equation unfold to one term. -/
theorem ignoredFieldsHaveNoEffect : Obligations.IgnoredFieldsHaveNoEffect :=
  fun _ _ _ _ _ _ _ => ⟨rfl, rfl, rfl, rfl⟩

end Sys2Proof
end

section
/-! Proofs for the family of the timing primitive, `40_timing_primitive.md`: DELAY loads the counter (rule R102) and its
phase D_WAIT counts it down to completion (rule R103). -/

namespace Sys2Proof

namespace Machine

/-! ### The counting phases, branch by branch -/

section CountDown

variable {s : State} (exit : State → State)

/-- A counting phase that finds zero exits (rules R103, R107). -/
theorem State.countDown_of_eq_zero (h : s.delayCnt = 0) : s.countDown exit = exit s.nextCycle := if_pos h

/-- A counting phase above zero only decrements the counter (rules R103, R107). -/
theorem State.countDown_of_ne_zero (h : s.delayCnt ≠ 0) :
    s.countDown exit = { s.nextCycle with delayCnt := s.delayCnt - 1 } := if_neg h

end CountDown

/-- D_WAIT is the counting phase whose exit completes the command (rule R103). -/
theorem exec_dWait (s : State) : exec .dWait s = .next (s.countDown State.complete) := rfl

end Machine

open Machine

/-- Settles O13: `exec_delay` gives the next state as a load and a phase change, and the statement is that state with
`Ncyc` and the operations on the state written out. -/
theorem delayLoadsTheCounter : Obligations.DelayLoadsTheCounter :=
  fun s port pin us => exec_delay port pin us s

/-- Settles O15: D_WAIT is a counting phase, whose two branches are those of the statement. -/
theorem dWaitCountsDown : Obligations.DWaitCountsDown := by
  refine fun s => ⟨fun hzero => ?_, fun hpos => ?_⟩
  · rw [exec_dWait, State.countDown_of_eq_zero _ hzero]
    rfl
  · rw [exec_dWait, State.countDown_of_ne_zero _ hpos]
    rfl

end Sys2Proof
end

section
/-! Proofs for the family of the line-direction controller, `41_line_direction.md`: the primitives with an invalid handle
(rule R112), SETOUT (rule R114) and SETIN (rule R115). -/

namespace Sys2Proof

namespace Machine

/-- A handle is invalid when one of its parts is zero. -/
theorem Handle.valid_eq_false_iff (h : Handle) : h.valid = false ↔ h.port = 0 ∨ h.pin = 0 := by
  rw [← Bool.not_eq_true, Handle.valid_iff, not_and_or, not_ne_iff, not_ne_iff]

/-! ### The primitives and the latch with a valid handle -/

section Valid

variable {h : Handle} (hv : h.valid = true) (s : State)
include hv

theorem State.setOutput_of_valid : s.setOutput h = { s with lineDir := .output, lineDrv := none } := if_pos hv
theorem State.setInput_of_valid : s.setInput h = { s with lineDir := .input } := if_pos hv
theorem State.latchHandle_of_valid : s.latchHandle h = { s with handle := h, runHandle := some h } := if_pos hv

end Valid

/-! ### The primitives, the latch and the two commands with an invalid handle -/

section Invalid

variable {h : Handle} (hi : h.valid = false) (s : State)
include hi

theorem State.setOutput_of_invalid : s.setOutput h = s := if_neg (Bool.eq_false_iff.1 hi)
theorem State.setInput_of_invalid : s.setInput h = s := if_neg (Bool.eq_false_iff.1 hi)
theorem State.latchHandle_of_invalid : s.latchHandle h = s := if_neg (Bool.eq_false_iff.1 hi)

end Invalid

section InvalidCommand

variable {port : PortId} {pin : PinMask} (hi : Handle.valid ⟨port, pin⟩ = false) (us : Micros) (s : State)
include hi

/-- With an invalid handle SETOUT only completes (rules R112, R114). -/
theorem exec_setout_of_invalid : exec (.setout port pin us) s = .next s.nextCycle.complete := by
  rw [exec_setout_next_iff, State.setOutput_of_invalid hi, State.latchHandle_of_invalid hi]
  exact ⟨.inl hi, rfl⟩

/-- With an invalid handle SETIN only completes (rules R112, R115). -/
theorem exec_setin_of_invalid : exec (.setin port pin us) s = .next s.nextCycle.complete := by
  rw [exec_setin_next_iff, State.setInput_of_invalid hi, State.latchHandle_of_invalid hi]
  exact ⟨.inl hi, rfl⟩

end InvalidCommand

end Machine

open Machine

/-- Settles O17: a valid handle writes the pad and is latched, and with an invalid one SETOUT only completes
(`exec_setout_of_invalid`). -/
theorem setoutMakesTheLineAnOutput : Obligations.SetoutMakesTheLineAnOutput := by
  refine fun s port pin us hok => ⟨fun hne => ?_, fun hz => ?_⟩
  · have hv := (Handle.valid_iff ⟨port, pin⟩).2 hne
    rw [exec_setout_next_iff, State.setOutput_of_valid hv, State.latchHandle_of_valid hv]
    exact ⟨hok, rfl⟩
  · exact exec_setout_of_invalid ((Handle.valid_eq_false_iff ⟨port, pin⟩).2 hz) us s

/-- Settles O18: a valid handle turns the pad and is latched, and with an invalid one SETIN only completes
(`exec_setin_of_invalid`). -/
theorem setinMakesTheLineAnInput : Obligations.SetinMakesTheLineAnInput := by
  refine fun s port pin us hok => ⟨fun hne => ?_, fun hz => ?_⟩
  · have hv := (Handle.valid_iff ⟨port, pin⟩).2 hne
    rw [exec_setin_next_iff, State.setInput_of_valid hv, State.latchHandle_of_valid hv]
    exact ⟨hok, rfl⟩
  · exact exec_setin_of_invalid ((Handle.valid_eq_false_iff ⟨port, pin⟩).2 hz) us s

/-- Settles O19: with an invalid handle the primitives and the latch are the identity, and both commands end in
`s.nextCycle.complete`, which keeps the registers listed. -/
theorem invalidHandleWritesNothing : Obligations.InvalidHandleWritesNothing := by
  intro s port pin hz
  have hi := (Handle.valid_eq_false_iff ⟨port, pin⟩).2 hz
  refine ⟨State.setOutput_of_invalid hi s, State.setInput_of_invalid hi s, State.latchHandle_of_invalid hi s,
    fun us => ?_⟩
  have setout := exec_setout_of_invalid hi us s
  have setin := exec_setin_of_invalid hi us s
  exact ⟨setout.trans setin.symm, _, setout, rfl, rfl, rfl, rfl, rfl, rfl, rfl, rfl, rfl, rfl, rfl⟩

end Sys2Proof
end

section
/-! Proofs for the family of the decoder's READ, `42_decoder_read.md`: acceptance (rules R130 to R132), the start signal
(rules R133 to R138), the bounded waits (rules R139 to R143, R146), the bits (rules R144, R145) and the two ends (rules
R147, R148). The counting phases and the waits are each settled once, for any phase of their kind. -/

namespace Sys2Proof

/-- A sampled bit is 1 when the level is high (rule R94). -/
theorem Level.bit_eq_decide (v : Level) : v.bit = decide (v = .high) := by
  cases v <;> rfl

namespace Machine

/-! ### The rows of the READ -/

/-- R_SETOUT turns the pad of the latched handle outward (rule R133). -/
theorem exec_rSetout (s : State) : exec .rSetout s = .next ((s.nextCycle.setOutput s.handle).goto .rDrvLow) := rfl

/-- R_LOW_HOLD is a counting phase (rule R135). -/
theorem exec_rLowHold (s : State) : exec .rLowHold s = .next (s.countDown (State.goto .rDrvHigh)) := rfl

/-- R_HIGH_HOLD is a counting phase (rule R137). -/
theorem exec_rHighHold (s : State) : exec .rHighHold s = .next (s.countDown (State.goto .rRelease)) := rfl

/-- R_BIT_DLY is a counting phase (rule R144). -/
theorem exec_rBitDly (s : State) : exec .rBitDly s = .next (s.countDown (State.goto .rBitSample)) := rfl

/-- R_RELEASE turns the pad of the latched handle inward and starts a wait (rule R138). -/
theorem exec_rRelease (s : State) :
    exec .rRelease s = .next (((s.nextCycle.setInput s.handle).clearWait).goto .rHs1) := rfl

/-- R_TIMEOUT turns the pad of the latched handle inward and completes with Timeout (rule R148). -/
theorem exec_rTimeout (s : State) :
    exec .rTimeout s = .next ((s.nextCycle.setInput s.handle).completeRead .timeout) := rfl

/-- R_BIT_HIGH is a wait while the line is high, whose exit is by the number of bits stored (rule R146). -/
theorem exec_rBitHigh (s : State) :
    exec .rBitHigh s = .next (s.boundedWait .high
      (State.goto (if s.bitIdx.toNat = Config.nBits then .rValidate else .rBitLow))) := rfl

/-- R_VALIDATE publishes a payload whose checksum holds, and completes by it (rule R147). -/
theorem exec_rValidate (s : State) :
    exec .rValidate s = .next (if checksumOk s.payload then (s.nextCycle.publish s.payload).completeRead .ok
      else s.nextCycle.completeRead .error) := rfl

/-- Inside the frame, R_BIT_SAMPLE stores the level and starts a wait (rule R145). -/
theorem exec_rBitSample_of_lt {s : State} (h : s.bitIdx.toNat < Config.nBits) :
    exec .rBitSample s = .next (((s.nextCycle.storeBit s.input.lineIn).clearWait).goto .rBitHigh) := if_pos h

/-- A row that applies `SetInput` to the latched handle turns the pad inward when the handle is valid, and leaves it when
not (rules R111, R112). -/
theorem exec_setInput_handle {i : Instr} {s : State} {effect : State → State}
    (row : exec i s = .next (effect (s.nextCycle.setInput s.handle))) :
    (s.handle.port ≠ 0 ∧ s.handle.pin ≠ 0 → exec i s = .next (effect { s.nextCycle with lineDir := .input })) ∧
    (s.handle.port = 0 ∨ s.handle.pin = 0 → exec i s = .next (effect s.nextCycle)) := by
  refine ⟨fun hne => ?_, fun hz => ?_⟩
  · rw [row, State.setInput_of_valid ((Handle.valid_iff _).2 hne)]
  · rw [row, State.setInput_of_invalid ((Handle.valid_eq_false_iff _).2 hz)]

/-! ### Staying in a phase -/

/-- The state `n` cycles later, in the same phase and with the same parameters. -/
structure StaysFor (n : Nat) (s t : State) : Prop where
  run : runFor n s = .next t
  phase : t.phase = s.phase
  params : t.params = s.params
  inputAt : ∀ k, t.inputAt k = s.inputAt (n + k)

namespace StaysFor

variable {n : Nat} {s t u : State}

theorem refl (s : State) : StaysFor 0 s s :=
  ⟨rfl, rfl, rfl, fun k => by rw [Nat.zero_add]⟩

/-- The last state's input is the record of its cycle. -/
theorem input (h : StaysFor n s t) : t.input = s.inputAt n := h.inputAt 0

/-- One cycle more. -/
theorem run_succ (h : StaysFor n s t) (hs : step t = .next u) : runFor (n + 1) s = .next u := by
  rw [runFor_add h.run 1, runFor_succ hs, runFor_zero]

/-- One cycle more in the phase. -/
theorem succ (h : StaysFor n s t) (hs : step t = .next u) (hphase : u.phase = t.phase) (hparams : u.params = t.params)
    (hinputs : u.inputs = t.inputs.tail) (hcycle : u.cycle = t.cycle + 1) : StaysFor (n + 1) s u where
  run := h.run_succ hs
  phase := hphase.trans h.phase
  params := hparams.trans h.params
  inputAt k := by rw [State.inputAt_succ hinputs hcycle, h.inputAt]; congr 1; omega

end StaysFor

/-! ### The counting phases of a READ -/

section CountingPhase

variable {p next : Phase} (row : ∀ s : State, exec p.toInstr s = .next (s.countDown (State.goto next)))
include row

/-- The body of a counting phase, its two branches written out (rule R107). -/
theorem exec_countingPhase (s : State) :
    (s.delayCnt = 0 → exec p.toInstr s = .next
      { s with phase := next, done := false, inputs := s.inputs.tail, cycle := s.cycle + 1 }) ∧
    (s.delayCnt ≠ 0 → exec p.toInstr s = .next
      { s with delayCnt := s.delayCnt - 1, done := false, inputs := s.inputs.tail, cycle := s.cycle + 1 }) := by
  rw [row]
  exact ⟨fun hzero => congrArg _ (State.countDown_of_eq_zero _ hzero),
    fun hpos => congrArg _ (State.countDown_of_ne_zero _ hpos)⟩

variable (hidle : p ≠ .idle) {s : State} (hp : s.phase = p)
include hidle hp

/-- Without reset a counting phase goes on for as many cycles as its counter holds. -/
theorem countingPhase_stays {n : Nat} (hr : NoResetFor s n) (hn : n ≤ s.delayCnt) :
    ∃ t, StaysFor n s t ∧ t.delayCnt = s.delayCnt - n := by
  induction n with
  | zero => exact ⟨s, .refl s, rfl⟩
  | succ n ih =>
    obtain ⟨t, stays, cnt⟩ := ih (fun k hk => hr k (by omega)) (by omega)
    have htp : t.phase = p := stays.phase.trans hp
    have hstep : step t = .next { t.nextCycle with delayCnt := t.delayCnt - 1 } := by
      rw [step_of_busy (stays.input ▸ hr n n.lt_succ_self) (htp ▸ hidle), htp]
      exact (exec_countingPhase row t).2 (by omega)
    exact ⟨_, stays.succ hstep rfl rfl rfl rfl, by simp only [cnt]; omega⟩

/-- Without reset a counting phase lasts one cycle more than its counter holds (rules R107, R152). -/
theorem countingPhase_lasts (hr : NoResetFor s (s.delayCnt + 1)) :
    (∀ k < s.delayCnt + 1, ∃ t, runFor k s = .next t ∧ t.phase = p) ∧
    ∃ t, runFor (s.delayCnt + 1) s = .next t ∧ t.phase = next := by
  refine ⟨fun k hk => ?_, ?_⟩
  · obtain ⟨t, stays, -⟩ := countingPhase_stays row hidle hp (n := k) (fun j hj => hr j (by omega)) (by omega)
    exact ⟨t, stays.run, stays.phase.trans hp⟩
  · obtain ⟨t, stays, cnt⟩ :=
      countingPhase_stays row hidle hp (n := s.delayCnt) (fun j hj => hr j (by omega)) le_rfl
    have htp : t.phase = p := stays.phase.trans hp
    have hstep : step t = .next (t.nextCycle.goto next) := by
      rw [step_of_busy (stays.input ▸ hr _ s.delayCnt.lt_succ_self) (htp ▸ hidle), htp]
      exact (exec_countingPhase row t).1 (by omega)
    exact ⟨_, stays.run_succ hstep, rfl⟩

end CountingPhase

/-! ### One poll of a wait -/

/-- The three ways a poll can go, for any row that is a wait: the level first, then the budget, a finite one or `INF`
(rule R139). -/
theorem exec_wait {i : Instr} {s : State} {held : Level} {exit : State → State}
    (row : exec i s = .next (s.boundedWait held exit)) :
    (s.input.lineIn ≠ held → exec i s = .next (exit s.nextCycle.clearWait)) ∧
    (s.input.lineIn = held → (∃ w, s.params.waitBudget = some w ∧ w ≤ s.waitCnt + 1) →
      exec i s = .next (s.nextCycle.goto .rTimeout)) ∧
    (s.input.lineIn = held → (∀ w, s.params.waitBudget = some w → s.waitCnt + 1 < w) →
      exec i s = .next { s.nextCycle with waitCnt := s.waitCnt + 1 }) := by
  rw [row, ← Params.budgetMet_iff]
  obtain ⟨hne, e⟩ | ⟨hl, met, e⟩ | ⟨hl, below, e⟩ := s.boundedWait_cases held exit <;> rw [e]
  · exact ⟨fun _ => rfl, fun hl => absurd hl hne, fun hl => absurd hl hne⟩
  · obtain ⟨w, hw, hle⟩ := (Params.budgetMet_iff ..).1 met
    exact ⟨fun hne => absurd hl hne, fun _ _ => rfl, fun _ hb => absurd (hb w hw) (by omega)⟩
  · exact ⟨fun hne => absurd hl hne, fun _ met => absurd met (by simp [below]), fun _ _ => rfl⟩

/-- The row of a wait phase is a wait, whose exit is to a further phase of the READ with `WAIT_CNT` cleared (rules R140 to
R143, R146). -/
theorem exec_of_held {s : State} {v : Level} (hv : s.phase.held = some v) :
    ∃ exit, exec s.phase.toInstr s = .next (s.boundedWait v exit) ∧
      (exit s.nextCycle.clearWait).phase ≠ s.phase ∧ (exit s.nextCycle.clearWait).phase ≠ .rTimeout ∧
      (exit s.nextCycle.clearWait).waitCnt = 0 := by
  cases hp : s.phase <;> rw [hp] at hv
  case rHs1 | rHs2 | rHs3 | rBitLow => cases hv; exact ⟨_, rfl, nofun, nofun, rfl⟩
  case rBitHigh =>
    cases hv
    refine ⟨_, exec_rBitHigh s, ?_⟩
    split <;> exact ⟨nofun, nofun, rfl⟩
  all_goals cases hv

section WaitPhase

variable {s : State} {v : Level} (hv : s.phase.held = some v)
include hv

/-- A wait phase is not IDLE. -/
theorem ne_idle_of_held : s.phase ≠ .idle := fun hp => by
  rw [hp] at hv
  cases hv

variable (hr : s.input.rst = false)
include hr

/-- A poll that reads the other level ends the wait, however many went before (rule R139). -/
theorem step_wait_exits (hl : s.input.lineIn ≠ v) :
    ∃ t, step s = .next t ∧ t.phase ≠ s.phase ∧ t.phase ≠ .rTimeout ∧ t.waitCnt = 0 := by
  obtain ⟨exit, row, further⟩ := exec_of_held hv
  exact ⟨_, (step_of_busy hr (ne_idle_of_held hv)).trans ((exec_wait row).1 hl), further⟩

/-- A poll that meets the budget on the held level times out (rule R139). -/
theorem step_wait_times_out (hl : s.input.lineIn = v) (met : ∃ w, s.params.waitBudget = some w ∧ w ≤ s.waitCnt + 1) :
    step s = .next (s.nextCycle.goto .rTimeout) := by
  obtain ⟨exit, row, -⟩ := exec_of_held hv
  exact (step_of_busy hr (ne_idle_of_held hv)).trans ((exec_wait row).2.1 hl met)

/-- A poll below the budget on the held level is only counted (rule R139). -/
theorem step_wait_counts (hl : s.input.lineIn = v) (below : ∀ w, s.params.waitBudget = some w → s.waitCnt + 1 < w) :
    step s = .next { s.nextCycle with waitCnt := s.waitCnt + 1 } := by
  obtain ⟨exit, row, -⟩ := exec_of_held hv
  exact (step_of_busy hr (ne_idle_of_held hv)).trans ((exec_wait row).2.2 hl below)

end WaitPhase

/-! ### A wait held for several cycles -/

/-- On the held level and below its budget, a wait counts every poll and goes on. -/
theorem wait_stays {s : State} {v : Level} {n : Nat} (hv : s.phase.held = some v) (h0 : s.waitCnt = 0)
    (hr : NoResetFor s n) (hl : LineHeldFor s n v) (below : ∀ w, s.params.waitBudget = some w → n < w) :
    ∃ t, StaysFor n s t ∧ t.waitCnt = n := by
  induction n with
  | zero => exact ⟨s, .refl s, h0⟩
  | succ n ih =>
    obtain ⟨t, stays, cnt⟩ := ih (fun k hk => hr k (by omega)) (fun k hk => hl k (by omega))
      (fun w hw => Nat.lt_of_succ_lt (below w hw))
    have hstep := step_wait_counts (stays.phase ▸ hv) (stays.input ▸ hr n n.lt_succ_self)
      (stays.input ▸ hl n n.lt_succ_self) (by rwa [cnt, stays.params])
    exact ⟨_, stays.succ hstep rfl rfl rfl rfl, congrArg (· + 1) cnt⟩

end Machine

open Machine

/-- Settles O26: R_LOW_HOLD is a counting phase, whose exit is to R_DRV_HIGH. -/
theorem rLowHoldCountsDown : Obligations.RLowHoldCountsDown :=
  ⟨exec_countingPhase (p := .rLowHold) exec_rLowHold,
    fun _ hp _ hr => countingPhase_lasts (p := .rLowHold) exec_rLowHold nofun hp hr⟩

/-- Settles O28: R_HIGH_HOLD is a counting phase, whose exit is to R_RELEASE. -/
theorem rHighHoldCountsDown : Obligations.RHighHoldCountsDown :=
  ⟨exec_countingPhase (p := .rHighHold) exec_rHighHold,
    fun _ hp _ hr => countingPhase_lasts (p := .rHighHold) exec_rHighHold nofun hp hr⟩

/-- Settles O33: R_BIT_DLY is a counting phase, whose exit is to R_BIT_SAMPLE. -/
theorem rBitDlyCountsBlindly : Obligations.RBitDlyCountsBlindly :=
  ⟨exec_countingPhase (p := .rBitDly) exec_rBitDly,
    fun _ hp _ hr => countingPhase_lasts (p := .rBitDly) exec_rBitDly nofun hp hr⟩

/-- Settles O30: each of the three rows is a wait, so a poll goes one of the three ways of `exec_wait`. -/
theorem handshakeWaitsAreBounded : Obligations.HandshakeWaitsAreBounded := by
  intro s i held next hmem
  simp only [List.mem_cons, List.not_mem_nil, or_false, Prod.mk.injEq] at hmem
  obtain ⟨rfl, rfl, rfl⟩ | ⟨rfl, rfl, rfl⟩ | ⟨rfl, rfl, rfl⟩ := hmem
  · exact exec_wait (exit := State.goto .rHs2) rfl
  · exact exec_wait (exit := State.goto .rHs3) rfl
  · exact exec_wait (exit := State.goto .rBitLow) rfl

/-- Settles O31: below the budget the polls are counted (`wait_stays`); then the next poll meets the budget, or reads the
other level and exits. -/
theorem waitsEndAtTheirBudget : Obligations.WaitsEndAtTheirBudget := by
  refine fun s v n hv h0 hl => ⟨fun hbudget hn hr => ?_, fun below hr => ?_⟩
  · have stays_below (k : Nat) (hk : k < n) : ∃ t, StaysFor k s t ∧ t.waitCnt = k :=
      wait_stays hv h0 (fun j hj => hr j (by omega)) (fun j hj => hl j (by omega))
        fun w hw => Option.some.inj (hbudget.symm.trans hw) ▸ hk
    refine ⟨fun k hk => ?_, ?_⟩
    · obtain ⟨t, stays, cnt⟩ := stays_below k hk
      exact ⟨t, stays.run, stays.phase, cnt⟩
    · obtain ⟨m, rfl⟩ := Nat.exists_eq_add_of_le' hn
      obtain ⟨t, stays, cnt⟩ := stays_below m m.lt_succ_self
      have hstep := step_wait_times_out (stays.phase ▸ hv) (stays.input ▸ hr m m.lt_succ_self)
        (stays.input ▸ hl m m.lt_succ_self) ⟨m + 1, stays.params ▸ hbudget, by rw [cnt]⟩
      exact ⟨_, stays.run_succ hstep, rfl⟩
  · obtain ⟨t, stays, cnt⟩ := wait_stays hv h0 (fun j hj => hr j (by omega)) hl below
    refine ⟨⟨t, stays.run, stays.phase, cnt⟩, fun hne => ?_⟩
    obtain ⟨u, hstep, further⟩ := step_wait_exits (stays.phase ▸ hv) (stays.input ▸ hr n n.lt_succ_self)
      (stays.input ▸ hne)
    exact ⟨u, stays.run_succ hstep, stays.phase ▸ further⟩

/-- Settles O23: the two effects of READ are `exec_read_next_iff`, and a cycle of a READ is one of the six cases of
`reportCase_of_step`, of which none leaves the READ but by completing. -/
theorem readIsAccepted : Obligations.ReadIsAccepted := by
  refine ⟨fun s port pin us hok => ⟨fun hne => ?_, fun hz => ?_, fun hadm => ?_⟩, fun s t hs hr h => ?_⟩
  · have hv := (Handle.valid_iff ⟨port, pin⟩).2 hne
    rw [exec_read_next_iff, if_pos hv, State.latchHandle_of_valid hv]
    exact ⟨hok, rfl⟩
  · have hi := (Handle.valid_eq_false_iff ⟨port, pin⟩).2 hz
    rw [exec_read_next_iff, if_neg (Bool.eq_false_iff.1 hi)]
    exact ⟨hok, rfl⟩
  · have hne := hadm.invalidStatus
    cases hst : s.params.invalidHandleStatus
    case ok => exact absurd hst hne
    case error => exact .inl rfl
    case timeout => exact .inr rfl
  · cases reportCase_of_step hr h with
    | kept keeps => exact .inl (keeps.reading.trans hs)
    | readStarts _ _ next => exact .inl (by rw [next]; rfl)
    | readFails _ _ next | publishes _ _ next | rejects _ _ next | timesOut _ next =>
      exact .inr (by rw [next]; exact ⟨rfl, rfl⟩)

/-- Settles O24: `SetOutput` writes the pad for a valid handle and is the identity for an invalid one. -/
theorem rSetoutTurnsTheLineOutward : Obligations.RSetoutTurnsTheLineOutward := by
  refine fun s => ⟨fun hne => ?_, fun hz => ?_⟩
  · rw [exec_rSetout, State.setOutput_of_valid ((Handle.valid_iff _).2 hne)]
    rfl
  · rw [exec_rSetout, State.setOutput_of_invalid ((Handle.valid_eq_false_iff _).2 hz)]
    rfl

/-- Settles O25: `exec_rDrvLow`, with the operations on the state written out. -/
theorem rDrvLowDrivesLow : Obligations.RDrvLowDrivesLow := exec_rDrvLow

/-- Settles O27: `exec_rDrvHigh`, with the operations on the state written out. -/
theorem rDrvHighDrivesHigh : Obligations.RDrvHighDrivesHigh := exec_rDrvHigh

/-- Settles O29: R_RELEASE applies `SetInput`, then starts the wait. -/
theorem rReleaseTurnsTheLineInward : Obligations.RReleaseTurnsTheLineInward :=
  fun s => exec_setInput_handle (effect := fun t => t.clearWait.goto .rHs1) (exec_rRelease s)

/-- Settles O32: a high line is the exit of `exec_rBitLow_of_high`, and the held level is low. -/
theorem rBitLowWaitsForTheHighPulse : Obligations.RBitLowWaitsForTheHighPulse := by
  intro s
  obtain ⟨-, timesOut, counts⟩ := exec_wait (exec_rBitLow s)
  exact ⟨exec_rBitLow_of_high, timesOut, counts⟩

/-- Settles O34: inside the frame the row stores the level (`exec_rBitSample_of_lt`), which is 1 when high. -/
theorem rBitSampleStoresTheLevel : Obligations.RBitSampleStoresTheLevel := by
  intro s h
  rw [exec_rBitSample_of_lt h, ← Level.bit_eq_decide]
  rfl

/-- Settles O36: a low line is the exit, to the phase that the number of bits stored says, and the held level is
high. -/
theorem rBitHighWaitsForTheEndOfBit : Obligations.RBitHighWaitsForTheEndOfBit := by
  intro s
  obtain ⟨exits, timesOut, counts⟩ := exec_wait (exec_rBitHigh s)
  refine ⟨fun hl h40 => ?_, fun hl h40 => ?_, timesOut, counts⟩
  · rw [exits (hl ▸ nofun), if_pos h40]
    rfl
  · rw [exits (hl ▸ nofun), if_neg h40]
    rfl

/-- Settles O37: the two branches of `exec_rValidate`, the published numbers written out. -/
theorem rValidatePublishesOrFails : Obligations.RValidatePublishesOrFails := by
  refine fun s => ⟨fun good => ?_, fun bad => ?_⟩
  · rw [exec_rValidate, if_pos good]
    rfl
  · rw [exec_rValidate, if_neg (Bool.eq_false_iff.1 bad)]
    rfl

/-- Settles O38: R_TIMEOUT applies `SetInput`, then completes. -/
theorem rTimeoutReportsTimeout : Obligations.RTimeoutReportsTimeout :=
  fun s => exec_setInput_handle (effect := State.completeRead .timeout) (exec_rTimeout s)

end Sys2Proof
end

section
/-! Proofs for the family of the payload and its checksum, `43_payload_checksum.md`: the assembler writes one bit and keeps
the other thirty-nine (rule R171), and the checksum holds when byte 4 is the truncated sum (rules R173, R174). -/

namespace Sys2Proof

namespace Machine

/-! ### The payload assembler, byte by byte -/

/-- The byte that holds received bit `k` gets the sample at its bit `7 - (k mod 8)` (rule R171). -/
theorem assembleBit_byte_same {k : Nat} (v : Bool) (b : Payload) (hk : k < 40) :
    (assembleBit k v b).byte (k / 8) = setBit (b.byte (k / 8)) (7 - k % 8) v := by
  have hbyte : k / 8 < 5 := by omega
  unfold assembleBit
  generalize k / 8 = n at hbyte ⊢
  interval_cases n <;> rfl

/-- The other four bytes are kept (rule R171). -/
theorem assembleBit_byte_other {k j : Nat} (v : Bool) (b : Payload) (hj : j < 5) (hne : j ≠ k / 8) :
    (assembleBit k v b).byte j = b.byte j := by
  unfold assembleBit
  generalize k / 8 = n at hne ⊢
  split <;> interval_cases j <;> trivial

/-! ### The checksum -/

/-- The checksum as a number (rule R173). -/
theorem checksum8_toNat (b : Payload) :
    (checksum8 b).toNat = (b.b0.toNat + b.b1.toNat + b.b2.toNat + b.b3.toNat) % 256 :=
  (BitVec.toNat_ofNat ..).trans (Nat.mod_mod ..)

/-- A payload passes when byte 4 is the checksum of the other four (rule R174). -/
theorem checksumOk_iff (b : Payload) : checksumOk b = true ↔ b.b4 = checksum8 b := beq_iff_eq

end Machine

open Machine

/-- Settles O39: a bit of the byte written is that of `setBit`, and a bit of another byte is kept with its byte. -/
theorem assembleBitWritesOneBit : Obligations.AssembleBitWritesOneBit := by
  intro b k v hk
  have hbit : 7 - k % 8 < 8 := by omega
  refine ⟨?_, fun j i hj _ hne => ?_⟩
  · rw [assembleBit_byte_same v b hk, setBit_getLsbD _ _ _ _ hbit, if_pos rfl]
  · by_cases hsame : j = k / 8
    · subst hsame
      have hi : i ≠ 7 - k % 8 := fun h => hne (h ▸ rfl)
      rw [assembleBit_byte_same v b hk, setBit_getLsbD _ _ _ _ hbit, if_neg hi]
    · rw [assembleBit_byte_other v b hj hsame]

/-- Settles O41: both parts are `checksum8_toNat`, the second through the equality of two bytes as numbers. -/
theorem checksumIsTheTruncatedSum : Obligations.ChecksumIsTheTruncatedSum := by
  refine fun b => ⟨checksum8_toNat b, ?_⟩
  rw [checksumOk_iff, ← BitVec.toNat_inj, checksum8_toNat]

end Sys2Proof
end

section
/-! Proofs for the family of the collaborators, `44_collaborators.md`: the temperature predicate of the host is strict, in
tenths and in degrees, and it is applied to a valid measurement only (rules R190, R93). -/

namespace Sys2Proof

namespace Machine

/-- The predicate in tenths of a degree (rule R190). -/
theorem tempAbove_iff (t : Tenths) : tempAbove t = true ↔ 400 < t.toNat := decide_eq_true_iff

/-- A whole number of units is ten times as many tenths, so the comparison of the raw number is exact (rules R87, R176). -/
theorem natCast_lt_unitsOf_iff (n : Nat) (t : Tenths) : (n : Rat) < unitsOf t ↔ n * 10 < t.toNat := by
  have hten : (0 : Rat) < 10 := by norm_num
  rw [unitsOf, lt_div_iff₀ hten]
  norm_cast

/-- The threshold has a value exactly when the measurement is valid, and then it is that of its temperature (rule R93). -/
theorem isAboveThreshold_eq_some_iff (o : Output) (b : Bool) :
    isAboveThreshold o = some b ↔ o.measValid = true ∧ ∃ t, o.tRaw = some t ∧ tempAbove t = b := by
  rw [isAboveThreshold, Option.ite_none_right_eq_some, Option.map_eq_some_iff]

end Machine

open Machine

/-- Settles O59: in tenths it is `tempAbove_iff`, in degrees `natCast_lt_unitsOf_iff` at 40, and what the host applies it
to is `isAboveThreshold_eq_some_iff`. -/
theorem tempAboveIsStrictlyAboveForty : Obligations.TempAboveIsStrictlyAboveForty := by
  refine ⟨fun t => ⟨tempAbove_iff t, ?_⟩, fun o b h => ?_⟩
  · exact (tempAbove_iff t).trans (natCast_lt_unitsOf_iff 40 t).symm
  · obtain ⟨hvalid, t, ht, hb⟩ := (isAboveThreshold_eq_some_iff o b).1 h
    exact ⟨hvalid, t, ht, hb.symm⟩

end Sys2Proof
end

section
/-! Proofs for the family of reset and hazards, `70_reset_and_hazards.md`: what a reset cycle leaves and shows (rule R230),
and the wait without a budget, which only a reset ends (rule R242). -/

namespace Sys2Proof

namespace Machine

/-! ### The reset cycle -/

/-- A cycle with `rst = 1` is a reset cycle, whatever the phase and the other inputs (rules R7, R230). -/
theorem step_of_reset {s : State} (hr : s.input.rst = true) : step s = .next s.resetCycle := if_pos hr

/-- The outputs after a reset: nothing in progress, the pad released, no measurement, `STATUS` at Error (rules R34,
R230). -/
theorem outputs_resetCycle (s : State) :
    outputs s.resetCycle =
      { cmdReady := true, busy := false, done := false, measValid := false, lineOe := false, lineOut := none,
        status := 1, hRaw := none, tRaw := none, selPort := 0, selPin := 0 } := rfl

/-- `busy` is shown in every phase but IDLE (rule R34). -/
theorem outputs_busy_iff (s : State) : (outputs s).busy = true ↔ s.phase ≠ .idle := bne_iff_ne

/-! ### A wait without a budget -/

/-- With `WAIT_BUDGET = INF` a wait on its held level goes on for as long as the level does, whatever `WAIT_CNT` it began
with (rules R139, R242). -/
theorem unboundedWait_stays {s : State} {v : Level} {n : Nat} (hinf : s.params.waitBudget = none)
    (hv : s.phase.held = some v) (hr : NoResetFor s n) (hl : LineHeldFor s n v) : ∃ t, StaysFor n s t := by
  induction n with
  | zero => exact ⟨s, .refl s⟩
  | succ n ih =>
    obtain ⟨t, stays⟩ := ih (fun k hk => hr k (by omega)) (fun k hk => hl k (by omega))
    have noBudget : ∀ w, t.params.waitBudget ≠ some w := by simp [stays.params, hinf]
    have hstep := step_wait_counts (stays.phase ▸ hv) (stays.input ▸ hr n n.lt_succ_self)
      (stays.input ▸ hl n n.lt_succ_self) fun w hw => absurd hw (noBudget w)
    exact ⟨_, stays.succ hstep rfl rfl rfl rfl⟩

end Machine

open Machine

/-- Settles O56: the wait goes on by `unboundedWait_stays`, a wait phase is busy, and the reset that follows leads to
IDLE. -/
theorem unboundedWaitHangs : Obligations.UnboundedWaitHangs := by
  intro s n v hinf hv hr hl
  obtain ⟨t, stays⟩ := unboundedWait_stays hinf hv hr hl
  have hbusy : t.phase ≠ .idle := stays.phase ▸ ne_idle_of_held hv
  refine ⟨t, stays.run, stays.phase, (outputs_busy_iff t).2 hbusy, fun hrst => ?_⟩
  exact ⟨_, stays.run_succ (step_of_reset (stays.input ▸ hrst)), by rw [outputs_resetCycle]⟩

/-- Settles O9: the cycle is a reset cycle, whose fields are the model's definition of it and whose outputs are
`outputs_resetCycle`. -/
theorem resetLoadsEveryRegister : Obligations.ResetLoadsEveryRegister :=
  fun s hr => ⟨s.resetCycle, step_of_reset hr, rfl, outputs_resetCycle s⟩

end Sys2Proof
end

section
/-! Proofs that the decoder and the encoder are inverse to each other (rules R80, R81, R89, in the byte layout of log
entry 8), and what follows for the words written out from the tables and for the phase codes (rules R21, R90). The two
directions share one split of the instructions: each is a command or the row of a phase. -/

namespace Sys2Proof

/-! ### The two formats -/

/-- Every instruction is a command of some operation code or the row of a phase. -/
theorem Instr.cmd_or_phase (i : Instr) :
    (∃ op port pin us, i = cmdInstr op port pin us) ∨ ∃ p : Phase, i = p.toInstr := by
  cases i
  case delay port pin us => exact .inl ⟨0, port, pin, us, rfl⟩
  case setout port pin us => exact .inl ⟨1, port, pin, us, rfl⟩
  case setin port pin us => exact .inl ⟨2, port, pin, us, rfl⟩
  case read port pin us => exact .inl ⟨3, port, pin, us, rfl⟩
  case idle => exact .inr ⟨.idle, rfl⟩
  case dWait => exact .inr ⟨.dWait, rfl⟩
  case rSetout => exact .inr ⟨.rSetout, rfl⟩
  case rDrvLow => exact .inr ⟨.rDrvLow, rfl⟩
  case rLowHold => exact .inr ⟨.rLowHold, rfl⟩
  case rDrvHigh => exact .inr ⟨.rDrvHigh, rfl⟩
  case rHighHold => exact .inr ⟨.rHighHold, rfl⟩
  case rRelease => exact .inr ⟨.rRelease, rfl⟩
  case rHs1 => exact .inr ⟨.rHs1, rfl⟩
  case rHs2 => exact .inr ⟨.rHs2, rfl⟩
  case rHs3 => exact .inr ⟨.rHs3, rfl⟩
  case rBitLow => exact .inr ⟨.rBitLow, rfl⟩
  case rBitDly => exact .inr ⟨.rBitDly, rfl⟩
  case rBitSample => exact .inr ⟨.rBitSample, rfl⟩
  case rBitHigh => exact .inr ⟨.rBitHigh, rfl⟩
  case rValidate => exact .inr ⟨.rValidate, rfl⟩
  case rTimeout => exact .inr ⟨.rTimeout, rfl⟩

/-- A command's word is that of its operation code and its fields. -/
theorem encodeWord_cmdInstr (op : OpCode) (port : PortId) (pin : PinMask) (us : Micros) :
    encodeWord (cmdInstr op port pin us) = .cmd (encodeCmd op port pin us) := by
  obtain ⟨delay, setout, setin, read⟩ := cmdInstr_of_op port pin us
  have hop : op = 0 ∨ op = 1 ∨ op = 2 ∨ op = 3 := by bv_omega
  obtain rfl | rfl | rfl | rfl := hop
  · rw [delay, encodeWord]
  · rw [setout, encodeWord]
  · rw [setin, encodeWord]
  · rw [read, encodeWord]

/-- A phase's word is its code. -/
theorem encodeWord_toInstr (p : Phase) : encodeWord p.toInstr = .phase p.code := by
  cases p <;> rfl

/-- An encoded command word decodes to the command of its fields. -/
theorem decodeCmd_encodeCmd (op : OpCode) (port : PortId) (pin : PinMask) (us : Micros) :
    decodeCmd (encodeCmd op port pin us) = cmdInstr op port pin us := by
  obtain ⟨hop, hport, hpin, hus⟩ := cmdFields_encodeCmd op port pin us
  rw [decodeCmd, hop, hport, hpin, hus]

/-- A phase's code decodes to its row. -/
theorem decodePhase_code (p : Phase) : decodePhase p.code = .ok p.toInstr := by
  rw [decodePhase, Phase.ofCode_code]

/-- The code of the phase found for a code is that code. -/
theorem Phase.code_of_ofCode {c : PhaseCode} {p : Phase} (h : Phase.ofCode c = some p) : p.code = c :=
  beq_iff_eq.1 (List.find?_some (p := fun q : Phase => q.code == c) (l := Phase.all) h)

/-- What a phase code decodes to is the row of a phase with that code. -/
theorem decodePhase_eq_ok {c : PhaseCode} {i : Instr} (h : decodePhase c = .ok i) :
    ∃ p : Phase, p.code = c ∧ p.toInstr = i := by
  unfold decodePhase at h
  split at h
  case h_1 p hp => exact ⟨p, Phase.code_of_ofCode hp, Except.ok.inj h⟩
  case h_2 => cases h

/-! ### Words and instructions -/

/-- The word of an instruction decodes to it. -/
theorem decodeWord_encodeWord (i : Instr) : decodeWord (encodeWord i) = .ok i := by
  obtain ⟨op, port, pin, us, rfl⟩ | ⟨p, rfl⟩ := i.cmd_or_phase
  · rw [encodeWord_cmdInstr, decodeWord, decodeCmd_encodeCmd]
  · rw [encodeWord_toInstr, decodeWord, decodePhase_code]

/-- A word that decodes is the word of the instruction it decodes to. -/
theorem encodeWord_of_decodeWord {w : TableWord} {i : Instr} (h : decodeWord w = .ok i) : encodeWord i = w := by
  cases w with
  | cmd w =>
    obtain rfl := Except.ok.inj h
    rw [decodeCmd, encodeWord_cmdInstr, encodeCmd_fields]
  | phase c =>
    obtain ⟨p, rfl, rfl⟩ := decodePhase_eq_ok h
    exact encodeWord_toInstr p

/-! ### Bytes and words -/

/-- The bytes of a word are read as that word. -/
theorem readWord_bytes (w : TableWord) : readWord w.bytes = .ok w := by
  cases w with
  | cmd w =>
    have hv : natOfBytes (bytesOfNat 11 w.toNat) = w.toNat := by
      have := w.isLt
      rw [natOfBytes_bytesOfNat]
      omega
    simp [readWord, TableWord.bytes, hv, w.isLt]
  | phase c =>
    have hv : natOfBytes (bytesOfNat 1 c.toNat) = c.toNat := by
      have := c.isLt
      rw [natOfBytes_bytesOfNat]
      omega
    simp [readWord, TableWord.bytes, hv, c.isLt]

/-- Bytes that are read as a word are the bytes of that word. -/
theorem bytes_of_readWord {bytes : List Byte} {w : TableWord} (h : readWord bytes = .ok w) : w.bytes = bytes := by
  have hbytes := bytesOfNat_natOfBytes bytes
  simp only [readWord] at h
  split_ifs at h with hlen hv hlen hv
  · obtain rfl := Except.ok.inj h
    rwa [TableWord.bytes, BitVec.toNat_ofNat, Nat.mod_eq_of_lt hv, ← hlen]
  · obtain rfl := Except.ok.inj h
    rwa [TableWord.bytes, BitVec.toNat_ofNat, Nat.mod_eq_of_lt hv, ← hlen]

/-- The bytes of a word decode as the word does. -/
theorem decode_bytes (w : TableWord) : decode w.bytes = decodeWord w := by
  rw [decode, readWord_bytes]

/-- Bytes that decode are those of a word that decodes to the same instruction. -/
theorem decode_eq_ok {bytes : List Byte} {i : Instr} (h : decode bytes = .ok i) :
    ∃ w : TableWord, w.bytes = bytes ∧ decodeWord w = .ok i := by
  unfold decode at h
  split at h
  case h_1 w hw => exact ⟨w, bytes_of_readWord hw, h⟩
  case h_2 => cases h

/-! ### The codes without a phase -/

/-- A phase's code is below 17 (rule R21). -/
theorem Phase.code_lt (p : Phase) : p.code.toNat < 17 := by
  cases p <;> decide

/-- A code from 17 on is rejected by name (rule R90). -/
theorem decodePhase_of_reserved {c : PhaseCode} (h : 17 ≤ c.toNat) : decodePhase c = .error .reservedPhaseCode := by
  unfold decodePhase
  split
  case h_1 p hp =>
    have := Phase.code_of_ofCode hp ▸ p.code_lt
    omega
  case h_2 => rfl

/-- Settles O1: the bytes of a word are read as the word (`readWord_bytes`), and the word of an instruction decodes to
it (`decodeWord_encodeWord`). -/
theorem encodeThenDecodeIsIdentity : Obligations.EncodeThenDecodeIsIdentity := by
  intro i
  rw [encode, decode_bytes, decodeWord_encodeWord]

/-- Settles O2: bytes that decode are those of a word, and the word is that of the instruction. -/
theorem decodedBytesAreTheEncoding : Obligations.DecodedBytesAreTheEncoding := by
  intro bytes i h
  obtain ⟨w, rfl, hw⟩ := decode_eq_ok h
  rw [encode, encodeWord_of_decodeWord hw]

/-- Settles O4: eight closed evaluations of the decoder. -/
theorem sampleWordsDecode : Obligations.SampleWordsDecode :=
  ⟨rfl, rfl, rfl, rfl, rfl, rfl, rfl, rfl⟩

/-- Settles O5: the one byte that holds a code is the bytes of the phase's word, and the reserved codes are those of no
phase (`decodePhase_of_reserved`). -/
theorem phaseCodesAreTheTable : Obligations.PhaseCodesAreTheTable := by
  refine ⟨fun p => ?_, rfl, fun n hlow hhigh => ?_⟩
  · exact (decode_bytes (.phase p.code)).trans (decodePhase_code p)
  · have hn : (BitVec.ofNat 5 n).toNat = n := Nat.mod_eq_of_lt hhigh
    have hbyte : [BitVec.ofNat 8 n] = (TableWord.phase (BitVec.ofNat 5 n)).bytes := by
      rw [TableWord.bytes, hn]
      rfl
    rw [hbyte, decode_bytes, decodeWord]
    exact decodePhase_of_reserved (hn.symm ▸ hlow)

namespace Machine

/-! ### The word a cycle fetches -/

/-- The word a cycle fetches decodes to the instruction it runs. -/
theorem decode_fetchWord (s : State) : decode s.fetchWord.bytes = .ok s.fetch := by
  rw [decode_bytes, State.fetchWord, State.fetch]
  split
  · rfl
  · exact decodePhase_code s.phase

/-- A cycle without reset runs the instruction it fetches (rule R7). -/
theorem step_of_no_reset {s : State} (hr : s.input.rst = false) : step s = exec s.fetch s :=
  if_neg (Bool.eq_false_iff.1 hr)

/-- What the fetched word decodes to is what the cycle runs. -/
theorem step_of_decode_fetchWord {s : State} {i : Instr} (hr : s.input.rst = false)
    (h : decode s.fetchWord.bytes = .ok i) : step s = exec i s := by
  rw [step_of_no_reset hr, Except.ok.inj ((decode_fetchWord s).symm.trans h)]

end Machine

open Machine

/-- Settles O7: in both cases the word is the one the cycle fetches. -/
theorem stepRunsTheDecodedInstruction : Obligations.StepRunsTheDecodedInstruction := by
  refine fun s i hr => ⟨fun hp hv h => ?_, fun hbusy h => ?_⟩
  · have hacc : s.accepts = true := by simp [State.accepts, hp, hv]
    refine step_of_decode_fetchWord hr ?_
    rw [State.fetchWord, if_pos hacc]
    exact h
  · have hacc : s.accepts = false := by simpa [State.accepts, imp_iff_not_or] using hbusy
    refine step_of_decode_fetchWord hr ?_
    rw [State.fetchWord, if_neg (Bool.eq_false_iff.1 hacc)]
    exact h

/-- Settles O8: the fetched word decodes to the fetched instruction, which the step runs. -/
theorem everyCycleHasAnInstruction : Obligations.EveryCycleHasAnInstruction :=
  fun s hr => ⟨s.fetch, decode_fetchWord s, step_of_no_reset hr⟩

end Sys2Proof
end

section
/-! Proofs about whole payloads: the two forms of the assembler agree (rule R172), the checksum cannot see the order of
the first four bytes (rule R181), and a measurement goes through its payload and back (rule R183). A payload is handled
as its forty received bits. -/

namespace Sys2Proof

namespace Machine

/-! ### A payload as its forty bits -/

/-- Two payloads with the same five bytes are the same. -/
theorem Payload.ext_byte {a b : Payload} (h : ∀ j < 5, a.byte j = b.byte j) : a = b := by
  have h0 : a.b0 = b.b0 := h 0 (by omega)
  have h1 : a.b1 = b.b1 := h 1 (by omega)
  have h2 : a.b2 = b.b2 := h 2 (by omega)
  have h3 : a.b3 = b.b3 := h 3 (by omega)
  have h4 : a.b4 = b.b4 := h 4 (by omega)
  cases a
  cases b
  simp_all

/-- Two payloads with the same forty received bits are the same (rule R86). -/
theorem Payload.ext_bit {a b : Payload} (h : ∀ k < 40, a.bit k = b.bit k) : a = b := by
  refine Payload.ext_byte fun j hj => BitVec.eq_of_getLsbD_eq fun i hi => ?_
  have hk := h (8 * j + (7 - i)) (by omega)
  have hbyte : (8 * j + (7 - i)) / 8 = j := by omega
  have hbit : 7 - (8 * j + (7 - i)) % 8 = i := by omega
  rwa [Payload.bit, Payload.bit, hbyte, hbit] at hk

/-- No bit of the zero payload is set. -/
theorem Payload.zero_bit (k : Nat) : Payload.zero.bit k = false := by
  rw [Payload.bit, Payload.byte.eq_def]
  split <;> exact BitVec.getLsbD_zero

/-- `AssembleBit` writes received bit `k` and keeps the others (rule R171). -/
theorem assembleBit_bit {k j : Nat} (v : Bool) (b : Payload) (hk : k < 40) (hj : j < 40) :
    (assembleBit k v b).bit j = if j = k then v else b.bit j := by
  rw [Payload.bit, Payload.bit]
  by_cases hbyte : j / 8 = k / 8
  · have hbit : j = k ↔ 7 - j % 8 = 7 - k % 8 := by omega
    rw [hbyte, assembleBit_byte_same v b hk, setBit_getLsbD _ _ _ _ (by omega)]
    simp only [hbit]
  · rw [assembleBit_byte_other v b (by omega) hbyte, if_neg fun h : j = k => hbyte (congrArg (· / 8) h)]

/-! ### Samples written one by one -/

/-- Samples written one by one from a zero payload: bit `k` is sample `k`, and no bit past the last sample is set. -/
theorem foldl_assembleBit_bit (bits : List Bool) (hlen : bits.length ≤ 40) {k : Nat} (hk : k < 40) :
    (bits.zipIdx.foldl (fun b x => assembleBit x.2 x.1 b) Payload.zero).bit k = bits[k]?.getD false := by
  induction bits using List.reverseRecOn with
  | nil => exact Payload.zero_bit k
  | append_singleton bits v ih =>
    rw [List.length_append, List.length_singleton] at hlen
    rw [List.zipIdx_append, List.foldl_append]
    simp only [List.zipIdx_singleton, List.foldl_cons, List.foldl_nil, Nat.zero_add]
    rw [assembleBit_bit v _ (by omega) hk, ih (by omega)]
    by_cases hlast : k = bits.length
    · rw [if_pos hlast, hlast, List.getElem?_concat_length, Option.getD_some]
    · rw [if_neg hlast]
      by_cases hin : k < bits.length
      · rw [List.getElem?_append_left hin]
      · rw [List.getElem?_eq_none (by omega), List.getElem?_eq_none (by simp; omega)]

/-! ### Samples shifted in -/

/-- A sample shifted in is bit 0, and every other bit is the one below it before (rule R172). -/
theorem shiftIn_getLsbD (f : Frame) (v : Bool) {j : Nat} (hj : j < 40) :
    (shiftIn f v).getLsbD j = if j = 0 then v else f.getLsbD (j - 1) := by
  rw [shiftIn, BitVec.getLsbD_append]
  by_cases h0 : j = 0
  · simp [h0]
  · have hlt : ¬ j < 1 := by omega
    have hin : j - 1 < 39 := by omega
    simp [h0, hlt, hin]

/-- Samples shifted in from zero: bit `j` is the sample `j` places before the last. -/
theorem foldl_shiftIn_getLsbD (bits : List Bool) {j : Nat} (hj : j < 40) :
    (bits.foldl shiftIn 0).getLsbD j = bits.reverse[j]?.getD false := by
  induction bits using List.reverseRecOn generalizing j with
  | nil => exact BitVec.getLsbD_zero
  | append_singleton bits v ih =>
    rw [List.foldl_append, List.reverse_concat, List.foldl_cons, List.foldl_nil, shiftIn_getLsbD _ _ hj]
    cases j with
    | zero => rfl
    | succ j => exact ih (by omega)

/-- The bytes of a frame from the top down (rule R65). -/
theorem Payload.ofFrame_byte (f : Frame) {j : Nat} (hj : j < 5) :
    (Payload.ofFrame f).byte j = f.extractLsb' (32 - 8 * j) 8 := by
  interval_cases j <;> rfl

/-- Received bit `k` of a frame is its bit `39 - k` (rule R65). -/
theorem Payload.ofFrame_bit (f : Frame) {k : Nat} (hk : k < 40) :
    (Payload.ofFrame f).bit k = f.getLsbD (39 - k) := by
  have hpos : 32 - 8 * (k / 8) + (7 - k % 8) = 39 - k := by omega
  have hbit : 7 - k % 8 < 8 := by omega
  rw [Payload.bit, Payload.ofFrame_byte f (by omega), BitVec.getLsbD_extractLsb', hpos]
  simp [hbit]

/-! ### The checksum and the measurement -/

/-- The checksum is a function of the sum of the first four bytes as a list (rule R173). -/
theorem checksum8_eq_sum (a b c d e : Byte) :
    checksum8 ⟨a, b, c, d, e⟩ = BitVec.ofNat 8 (([a, b, c, d].map BitVec.toNat).sum % 256) := by
  simp [checksum8, Nat.add_assoc]

/-- The two bytes of a 16-bit number make it up again. -/
theorem ofNat_div_mod_bytes (v : Tenths) :
    BitVec.ofNat 16 ((BitVec.ofNat 8 (v.toNat / 256)).toNat * 256 + (BitVec.ofNat 8 (v.toNat % 256)).toNat) = v := by
  have := v.isLt
  apply BitVec.eq_of_toNat_eq
  simp only [BitVec.toNat_ofNat]
  omega

/-- The payload that carries a measurement passes the checksum: byte 4 is that of the other four (rule R183). -/
theorem checksumOk_encodeMeasurement (h t : Tenths) : checksumOk (encodeMeasurement h t) = true :=
  (checksumOk_iff _).2 rfl

end Machine

open Machine

/-- Settles O40: in both forms received bit `k` is sample `k`, in the shift register at bit `39 - k`. -/
theorem shiftRegisterFormAgrees : Obligations.ShiftRegisterFormAgrees := by
  refine fun bits hlen => Payload.ext_bit fun k hk => ?_
  have hpos : bits.length - 1 - (39 - k) = k := by omega
  rw [foldl_assembleBit_bit bits hlen.le hk, Payload.ofFrame_bit _ hk, foldl_shiftIn_getLsbD bits (by omega),
    List.getElem?_reverse (by omega), hpos]

/-- Settles O42: reordered bytes have the same sum, and the checksum sees the sum alone (`checksum8_eq_sum`). -/
theorem checksumCannotSeeOrder : Obligations.ChecksumCannotSeeOrder := by
  refine ⟨?_, rfl⟩
  rintro l m a b c d a' b' c' d' e rfl rfl hperm
  have hsum := (hperm.map BitVec.toNat).sum_eq
  rw [checksumOk, checksumOk, checksum8_eq_sum, checksum8_eq_sum, hsum]

/-- Settles O44: the payload passes by its making, and each quantity is the two bytes it was cut into
(`ofNat_div_mod_bytes`). -/
theorem measurementRoundTrips : Obligations.MeasurementRoundTrips :=
  fun h t => ⟨checksumOk_encodeMeasurement h t, Prod.ext (ofNat_div_mod_bytes h) (ofNat_div_mod_bytes t)⟩

end Sys2Proof
end

section
/-! Proofs about every cycle without reset. `Cycle` says once all that such a cycle can do, with the next state written
as the operations on the state; what a run's handle, the pad and the phase can become is read off its cases (rules
R233, R27, R28, R149). -/

namespace Sys2Proof

namespace Machine

/-! ### The cases of a cycle -/

/-- The handle on the command inputs. -/
abbrev State.cmdHandle (s : State) : Handle := ⟨s.input.cmdPort, s.input.cmdPin⟩

/-- What a cycle without reset does: IDLE with no command or with one of the four, the counting phases, the start
signal, the waits, the sample, and the two ends of a READ. -/
inductive Cycle (s : State) : State → Prop
  | quiet (phase : s.phase = .idle) (silent : s.input.cmdValid = false) : Cycle s s.nextCycle
  | delay (accepted : s.AcceptsOp 0) :
    Cycle s ((s.nextCycle.loadDelay (ncyc s.params s.input.cmdUs.toNat)).goto .dWait)
  | setout (accepted : s.AcceptsOp 1) (ok : HandleOk s.cmdHandle s) :
    Cycle s ((s.nextCycle.setOutput s.cmdHandle).latchHandle s.cmdHandle).complete
  | setin (accepted : s.AcceptsOp 2) (ok : HandleOk s.cmdHandle s) :
    Cycle s ((s.nextCycle.setInput s.cmdHandle).latchHandle s.cmdHandle).complete
  | readStarts (accepted : s.AcceptsOp 3) (ok : HandleOk s.cmdHandle s) (valid : s.cmdHandle.valid = true) :
    Cycle s (((s.nextCycle.clearMeasValid.latchHandle s.cmdHandle).freshPayload).goto .rSetout)
  | readFails (accepted : s.AcceptsOp 3) (invalid : s.cmdHandle.valid = false) :
    Cycle s (s.nextCycle.clearMeasValid.completeRead s.params.invalidHandleStatus)
  | counts (phase : s.phase ∈ [Phase.dWait, .rLowHold, .rHighHold, .rBitDly]) (pos : s.delayCnt ≠ 0) :
    Cycle s { s.nextCycle with delayCnt := s.delayCnt - 1 }
  | delayEnds (phase : s.phase = .dWait) (zero : s.delayCnt = 0) : Cycle s s.nextCycle.complete
  | countEnds (next : Phase)
    (phase : (s.phase, next) ∈ [(Phase.rLowHold, Phase.rDrvHigh), (.rHighHold, .rRelease), (.rBitDly, .rBitSample)])
    (zero : s.delayCnt = 0) : Cycle s (s.nextCycle.goto next)
  | turnsOutward (phase : s.phase = .rSetout) : Cycle s ((s.nextCycle.setOutput s.handle).goto .rDrvLow)
  | drivesLow (phase : s.phase = .rDrvLow) :
    Cycle s (((s.nextCycle.driveLine .low).loadDelay s.params.nl).goto .rLowHold)
  | drivesHigh (phase : s.phase = .rDrvHigh) :
    Cycle s (((s.nextCycle.driveLine .high).loadDelay s.params.nr).goto .rHighHold)
  | turnsInward (phase : s.phase = .rRelease) : Cycle s (((s.nextCycle.setInput s.handle).clearWait).goto .rHs1)
  | polls (v : Level) (wait : s.phase.held = some v) (below : s.params.budgetMet (s.waitCnt + 1) = false) :
    Cycle s { s.nextCycle with waitCnt := s.waitCnt + 1 }
  | waitTimesOut (v : Level) (wait : s.phase.held = some v) : Cycle s (s.nextCycle.goto .rTimeout)
  | handshakeEnds (next : Phase)
    (phase : (s.phase, next) ∈ [(Phase.rHs1, Phase.rHs2), (.rHs2, .rHs3), (.rHs3, .rBitLow)]) :
    Cycle s (s.nextCycle.clearWait.goto next)
  | bitLowEnds (phase : s.phase = .rBitLow) : Cycle s ((s.nextCycle.clearWait.loadDelay s.params.ns).goto .rBitDly)
  | samples (phase : s.phase = .rBitSample) (inFrame : s.bitIdx.toNat < 40) :
    Cycle s (((s.nextCycle.storeBit s.lineRead).clearWait).goto .rBitHigh)
  | nextBit (phase : s.phase = .rBitHigh) (notLast : s.bitIdx.toNat ≠ 40) :
    Cycle s (s.nextCycle.clearWait.goto .rBitLow)
  | lastBit (phase : s.phase = .rBitHigh) (last : s.bitIdx.toNat = 40) :
    Cycle s (s.nextCycle.clearWait.goto .rValidate)
  | publishes (phase : s.phase = .rValidate) (good : checksumOk s.payload = true) :
    Cycle s ((s.nextCycle.publish s.payload).completeRead .ok)
  | rejects (phase : s.phase = .rValidate) (bad : checksumOk s.payload = false) :
    Cycle s (s.nextCycle.completeRead .error)
  | timesOut (phase : s.phase = .rTimeout) : Cycle s ((s.nextCycle.setInput s.handle).completeRead .timeout)

/-- An accepted command is one of the five cases of its operation code (rule R81). -/
theorem cycle_of_command {s t : State} (hp : s.phase = .idle) (hv : s.input.cmdValid = true)
    (h : exec (cmdInstr s.input.cmdOp s.input.cmdPort s.input.cmdPin s.input.cmdUs) s = .next t) : Cycle s t := by
  unfold cmdInstr at h
  split_ifs at h with h0 h1 h2
  · obtain rfl := Host.Outcome.next.inj h
    exact .delay ⟨hp, hv, h0⟩
  · obtain ⟨ok, rfl⟩ := (exec_setout_next_iff ..).1 h
    exact .setout ⟨hp, hv, h1⟩ ok
  · obtain ⟨ok, rfl⟩ := (exec_setin_next_iff ..).1 h
    exact .setin ⟨hp, hv, h2⟩ ok
  · have h3 : s.input.cmdOp = 3 := by bv_omega
    obtain ⟨ok, rfl⟩ := (exec_read_next_iff ..).1 h
    by_cases valid : s.cmdHandle.valid = true
    · exact if_pos valid ▸ .readStarts ⟨hp, hv, h3⟩ ok valid
    · exact if_neg valid ▸ .readFails ⟨hp, hv, h3⟩ (Bool.eq_false_iff.2 valid)

/-- A counting phase counts, or ends as its exit says. -/
theorem cycle_of_countDown {s : State} {exit : State → State}
    (hp : s.phase ∈ [Phase.dWait, .rLowHold, .rHighHold, .rBitDly])
    (hexit : s.delayCnt = 0 → Cycle s (exit s.nextCycle)) : Cycle s (s.countDown exit) := by
  obtain ⟨zero, e⟩ | ⟨pos, e⟩ := s.countDown_cases exit <;> rw [e]
  · exact hexit zero
  · exact .counts hp pos

/-- A wait polls, times out, or ends as its exit says. -/
theorem cycle_of_boundedWait {s : State} {v : Level} {exit : State → State} (hv : s.phase.held = some v)
    (hexit : Cycle s (exit s.nextCycle.clearWait)) : Cycle s (s.boundedWait v exit) := by
  obtain ⟨-, e⟩ | ⟨-, -, e⟩ | ⟨-, below, e⟩ := s.boundedWait_cases v exit <;> rw [e]
  · exact hexit
  · exact .waitTimesOut v hv
  · exact .polls v hv below

/-- Outside IDLE the row of the phase gives the case. -/
theorem cycle_of_busy {s t : State} (hidle : s.phase ≠ .idle) (h : exec s.phase.toInstr s = .next t) : Cycle s t := by
  cases hp : s.phase <;> rw [hp] at h
  case idle => exact absurd hp hidle
  case dWait =>
    obtain rfl := Host.Outcome.next.inj h
    exact cycle_of_countDown (by simp [hp]) (.delayEnds hp)
  case rSetout => obtain rfl := Host.Outcome.next.inj h; exact .turnsOutward hp
  case rDrvLow => obtain rfl := Host.Outcome.next.inj h; exact .drivesLow hp
  case rDrvHigh => obtain rfl := Host.Outcome.next.inj h; exact .drivesHigh hp
  case rRelease => obtain rfl := Host.Outcome.next.inj h; exact .turnsInward hp
  case rLowHold | rHighHold | rBitDly =>
    obtain rfl := Host.Outcome.next.inj h
    exact cycle_of_countDown (by simp [hp]) (.countEnds _ (by simp [hp]))
  case rHs1 | rHs2 | rHs3 =>
    obtain rfl := Host.Outcome.next.inj h
    exact cycle_of_boundedWait (by rw [hp, Phase.held]) (.handshakeEnds _ (by simp [hp]))
  case rBitLow =>
    obtain rfl := Host.Outcome.next.inj h
    exact cycle_of_boundedWait (by rw [hp, Phase.held]) (.bitLowEnds hp)
  case rBitSample =>
    by_cases inFrame : s.bitIdx.toNat < Config.nBits
    · obtain rfl := Host.Outcome.next.inj ((exec_rBitSample_of_lt inFrame).symm.trans h)
      exact .samples hp inFrame
    · exact absurd ((if_neg inFrame).symm.trans h) nofun
  case rBitHigh =>
    obtain rfl := Host.Outcome.next.inj h
    refine cycle_of_boundedWait (by rw [hp, Phase.held]) ?_
    by_cases last : s.bitIdx.toNat = Config.nBits
    · exact if_pos last ▸ .lastBit hp last
    · exact if_neg last ▸ .nextBit hp last
  case rValidate =>
    obtain rfl := Host.Outcome.next.inj h
    by_cases good : checksumOk s.payload = true
    · exact if_pos good ▸ .publishes hp good
    · exact if_neg good ▸ .rejects hp (Bool.eq_false_iff.2 good)
  case rTimeout => obtain rfl := Host.Outcome.next.inj h; exact .timesOut hp

/-- Every cycle without reset is one of the cases: by the command in IDLE, else by the phase (rule R7). -/
theorem cycle_of_step {s t : State} (hr : s.input.rst = false) (h : step s = .next t) : Cycle s t := by
  by_cases hp : s.phase = .idle
  · cases hv : s.input.cmdValid
    · obtain rfl := Host.Outcome.next.inj ((step_of_idle_quiet hr hp hv).symm.trans h)
      exact .quiet hp hv
    · exact cycle_of_command hp hv (step_of_accepts hr hp hv ▸ h)
  · exact cycle_of_busy hp (step_of_busy hr hp ▸ h)

/-! ### What a cycle keeps -/

/-- No cycle writes the parameters (rule R1). -/
theorem Cycle.params_eq {s t : State} (h : Cycle s t) : t.params = s.params := by
  cases h <;> simp

/-- Outside IDLE no cycle writes `HANDLE` or the handle of the run (rules R26, R233). -/
theorem Cycle.handle_of_busy {s t : State} (h : Cycle s t) (hp : s.phase ≠ .idle) :
    t.handle = s.handle ∧ t.runHandle = s.runHandle := by
  cases h with
  | quiet phase => exact absurd phase hp
  | delay accepted | setout accepted | setin accepted | readStarts accepted | readFails accepted =>
    exact absurd accepted.1 hp
  | _ => simp

/-! ### The handle of the run -/

/-- This cycle's command uses a valid handle: a line command, not DELAY, is offered in IDLE (rule R82). -/
abbrev State.UsesHandle (s : State) : Prop :=
  s.phase = .idle ∧ s.input.cmdValid = true ∧ s.input.cmdOp ≠ 0 ∧ s.cmdHandle.valid = true

/-- A line command with a valid handle that the model gives a meaning sets the handle of the run, and nothing else
writes it (rule R233). -/
theorem Cycle.runHandle_cases {s t : State} (h : Cycle s t) :
    (s.UsesHandle ∧ HandleOk s.cmdHandle s ∧ t.runHandle = some s.cmdHandle) ∨
    (¬ s.UsesHandle ∧ t.runHandle = s.runHandle) := by
  by_cases hp : s.phase = .idle
  case neg => exact .inr ⟨fun uses => hp uses.1, (h.handle_of_busy hp).2⟩
  have line {op : OpCode} (hop : op ≠ 0) (acc : s.AcceptsOp op) : s.UsesHandle ↔ s.cmdHandle.valid = true := by
    obtain ⟨_, hv, rfl⟩ := acc
    exact ⟨fun uses => uses.2.2.2, fun valid => ⟨hp, hv, hop, valid⟩⟩
  cases h with
  | quiet _ silent => exact .inr ⟨by simp [silent], rfl⟩
  | delay accepted => exact .inr ⟨by simp [accepted.2.2], rfl⟩
  | setout accepted ok | setin accepted ok =>
    rw [line (by decide) accepted]
    cases valid : s.cmdHandle.valid
    · exact .inr ⟨nofun, by simp [valid]⟩
    · exact .inl ⟨rfl, ok, by simp [valid]⟩
  | readStarts accepted ok valid =>
    exact .inl ⟨(line (by decide) accepted).2 valid, ok, by simp [valid]⟩
  | readFails accepted invalid => exact .inr ⟨by simp [invalid], rfl⟩
  | counts phase => simp [hp] at phase
  | countEnds _ phase | handshakeEnds _ phase => simp [hp] at phase
  | polls _ wait | waitTimesOut _ wait => exact absurd hp (ne_idle_of_held wait)
  | delayEnds phase | turnsOutward phase | drivesLow phase | drivesHigh phase | turnsInward phase | bitLowEnds phase
  | samples phase | nextBit phase | lastBit phase | publishes phase | rejects phase | timesOut phase =>
    exact absurd (hp.symm.trans phase) nofun

/-- A run that has a handle keeps it: a command that the model gives a meaning uses the same one (rule R233). -/
theorem Cycle.runHandle_kept {s t : State} {g : Handle} (h : Cycle s t) (hg : s.runHandle = some g) :
    t.runHandle = some g := by
  obtain ⟨uses, ok, ht⟩ | ⟨-, ht⟩ := h.runHandle_cases
  · obtain invalid | ⟨-, none | same⟩ := ok
    · exact absurd (invalid.symm.trans uses.2.2.2) nofun
    · exact absurd (none.symm.trans hg) nofun
    · rw [ht, ← same, hg]
  · rw [ht, hg]

/-! ### Refused handles -/

/-- A handle that is refused is refused by the three line commands alike. -/
theorem exec_of_lineRefusal {s : State} {port : PortId} {pin : PinMask} {r : Refusal}
    (h : lineRefusal ⟨port, pin⟩ s = some r) (us : Micros) :
    exec (.setout port pin us) s = .refused r ∧ exec (.setin port pin us) s = .refused r ∧
    exec (.read port pin us) s = .refused r := by
  simp [exec, execSetout, execSetin, execRead, onLine, h]

/-- A valid handle with no single pin is refused as such (rule R95). -/
theorem lineRefusal_of_severalPins {h : Handle} (s : State) (hv : h.valid = true) (hpin : pinSingle h.pin = false) :
    lineRefusal h s = some .severalPins := by
  simp [lineRefusal, hv, hpin]

/-- A valid handle with a single pin is refused in a run that has another (rule R233). -/
theorem lineRefusal_of_changed {h g : Handle} {s : State} (hv : h.valid = true) (hpin : pinSingle h.pin = true)
    (hg : s.runHandle = some g) (hne : g ≠ h) : lineRefusal h s = some .handleChanged := by
  simp [lineRefusal, hv, hpin, hg, hne]

/-- A mask with a single pin has no two bits set. -/
theorem eq_of_pinSingle {m : PinMask} (h : pinSingle m = true) {i j : Nat} (hi : m.getLsbD i = true)
    (hj : m.getLsbD j = true) : i = j := by
  obtain ⟨k, -, hk⟩ := List.any_eq_true.1 h
  rw [beq_iff_eq.1 hk, BitVec.getLsbD_twoPow, Bool.and_eq_true, decide_eq_true_iff, decide_eq_true_iff] at hi hj
  exact hi.2.symm.trans hj.2

/-! ### The pad -/

/-- Only SETOUT and R_SETOUT turn the pad outward, only SETIN, R_RELEASE and R_TIMEOUT turn it inward (rule R27). -/
theorem Cycle.lineDir_cases {s t : State} (h : Cycle s t) :
    t.lineDir = s.lineDir ∨ (t.lineDir = .output ∧ (s.phase = .rSetout ∨ s.AcceptsOp 1)) ∨
    (t.lineDir = .input ∧ (s.phase = .rRelease ∨ s.phase = .rTimeout ∨ s.AcceptsOp 2)) := by
  cases h with
  | setout accepted | setin accepted =>
    by_cases valid : s.cmdHandle.valid = true <;> simp [valid, State.AcceptsOp, accepted]
  | turnsOutward phase | turnsInward phase | timesOut phase =>
    by_cases valid : s.handle.valid = true <;> simp [valid, phase]
  | _ => exact .inl (by simp)

/-- Only SETOUT and R_SETOUT empty the latch, only R_DRV_LOW and R_DRV_HIGH fill it (rule R28). -/
theorem Cycle.lineDrv_cases {s t : State} (h : Cycle s t) :
    t.lineDrv = s.lineDrv ∨ (t.lineDrv = none ∧ (s.phase = .rSetout ∨ s.AcceptsOp 1)) ∨
    (t.lineDrv = some .low ∧ s.phase = .rDrvLow) ∨ (t.lineDrv = some .high ∧ s.phase = .rDrvHigh) := by
  cases h with
  | setout accepted => by_cases valid : s.cmdHandle.valid = true <;> simp [valid, State.AcceptsOp, accepted]
  | turnsOutward phase => by_cases valid : s.handle.valid = true <;> simp [valid, phase]
  | drivesLow phase => exact .inr (.inr (.inl ⟨rfl, phase⟩))
  | drivesHigh phase => exact .inr (.inr (.inr ⟨rfl, phase⟩))
  | _ => exact .inl (by simp)

end Machine

open Machine

/-- Settles O21: a mask with two bits set is no single pin, so the handle is refused; DELAY does not look at it. -/
theorem severalPinsAreRefused : Obligations.SeveralPinsAreRefused := by
  intro s port pin us i j hport _ _ hij hi hj
  have hpin : pinSingle pin = false := Bool.eq_false_iff.2 fun single => hij (eq_of_pinSingle single hi hj)
  have hne : pin ≠ 0 := by
    rintro rfl
    simp at hi
  have hv := (Handle.valid_iff ⟨port, pin⟩).2 ⟨hport, hne⟩
  obtain ⟨setout, setin, read⟩ := exec_of_lineRefusal (lineRefusal_of_severalPins s hv hpin) us
  exact ⟨setout, setin, read, _, exec_delay port pin us s⟩

/-- Settles O22: another handle is refused as such or for its pins; a cycle writes the handle of the run only as
`Cycle.runHandle_cases` says, and a reset cycle not at all. -/
theorem changedHandleIsRefused : Obligations.ChangedHandleIsRefused := by
  refine ⟨fun s g port pin us hport hpin hg hne => exec_of_lineRefusal ?_ us, fun s t g hg h => ?_,
    fun s t g hnone h => ?_⟩
  · have hv := (Handle.valid_iff ⟨port, pin⟩).2 ⟨hport, hpin⟩
    split
    next single => exact lineRefusal_of_changed hv single hg hne
    next several => exact lineRefusal_of_severalPins s hv (Bool.eq_false_iff.2 several)
  · cases hr : s.input.rst
    · exact (cycle_of_step hr h).runHandle_kept hg
    · obtain rfl := Host.Outcome.next.inj ((step_of_reset hr).symm.trans h)
      exact hg
  · cases hr : s.input.rst
    · obtain ⟨⟨hp, hv, hop, valid⟩, -, ht⟩ | ⟨unused, ht⟩ := (cycle_of_step hr h).runHandle_cases
      · rw [ht, Option.some.injEq]
        exact ⟨fun same => ⟨rfl, hp, hv, hop, same ▸ valid, same.symm⟩, fun uses => uses.2.2.2.2.2.symm⟩
      · rw [ht, hnone]
        exact ⟨nofun, fun ⟨_, hp, hv, hop, valid, same⟩ =>
          absurd ⟨hp, hv, hop, (congrArg Handle.valid same).symm.trans valid⟩ unused⟩
    · obtain rfl := Host.Outcome.next.inj ((step_of_reset hr).symm.trans h)
      exact ⟨fun hg => absurd (hnone.symm.trans hg) nofun, fun uses => absurd uses.1 nofun⟩

/-- Settles O52: a reset cycle loads both registers, and any other cycle changes them only as `Cycle.lineDir_cases` and
`Cycle.lineDrv_cases` say. -/
theorem padChangesOnlyByThePrimitives : Obligations.PadChangesOnlyByThePrimitives := by
  intro s t h
  cases hr : s.input.rst
  case true =>
    obtain rfl := Host.Outcome.next.inj ((step_of_reset hr).symm.trans h)
    exact ⟨fun _ => .inr ⟨rfl, .inl rfl⟩, fun _ => .inl ⟨rfl, .inl rfl⟩⟩
  case false =>
    have hc := cycle_of_step hr h
    refine ⟨fun changed => ?_, fun changed => ?_⟩
    · obtain kept | ⟨ht, outward⟩ | ⟨ht, inward⟩ := hc.lineDir_cases
      · exact absurd kept changed
      · exact .inl ⟨ht, rfl, outward⟩
      · exact .inr ⟨ht, .inr inward⟩
    · obtain kept | ⟨ht, emptied⟩ | driven := hc.lineDrv_cases
      · exact absurd kept changed
      · exact .inl ⟨ht, .inr emptied⟩
      · exact .inr driven

/-- Settles O54: the pair of phases of each case of a cycle is in the table; a phase that goes on is paired with
itself. -/
theorem phasesFollowTheTable : Obligations.PhasesFollowTheTable := by
  intro s t hr h
  cases cycle_of_step hr h with
  | quiet phase => simp [phase]
  | delay accepted | setout accepted | setin accepted | readStarts accepted | readFails accepted => simp [accepted.1]
  | counts phase =>
    simp only [List.mem_cons, List.not_mem_nil, or_false] at phase
    obtain hp | hp | hp | hp := phase <;> simp [hp]
  | countEnds next phase | handshakeEnds next phase =>
    simp only [List.mem_cons, List.not_mem_nil, or_false, Prod.mk.injEq] at phase
    obtain ⟨hp, rfl⟩ | ⟨hp, rfl⟩ | ⟨hp, rfl⟩ := phase <;> simp [hp]
  | polls v wait | waitTimesOut v wait =>
    cases hp : s.phase <;> rw [hp] at wait
    case rHs1 | rHs2 | rHs3 | rBitLow | rBitHigh => simp [hp]
    all_goals cases wait
  | delayEnds phase | turnsOutward phase | drivesLow phase | drivesHigh phase | turnsInward phase | bitLowEnds phase
  | samples phase | nextBit phase | lastBit phase | publishes phase | rejects phase | timesOut phase => simp [phase]

end Sys2Proof
end

section
/-! Proofs about the invariant: it is what holds whatever the phase (`RunInv`) with what holds in each phase
(`PhaseInv`), and each half is kept by every case of a cycle (`Cycle`). -/

namespace Sys2Proof

/-- The parameters of the configuration are admissible, whatever the values of the OPEN ones (rule R1). -/
theorem Config.params_admissible : Config.params.Admissible where
  tick := Nat.le_add_left 1 _
  cycles := Nat.le_add_left 1 _
  startLow := Nat.le_add_left 1000 _
  budget := by cases h : Config.budgetExcess <;> simp [Config.params, h]
  invalidStatus := by cases h : Config.invalidHandleIsError <;> simp [Config.params, h]

/-- A finite admissible budget permits a first poll. -/
theorem Params.Admissible.budgetMet_zero {p : Params} (h : p.Admissible) : p.budgetMet 0 = false := by
  rw [← Bool.not_eq_true, Machine.Params.budgetMet_iff]
  rintro ⟨w, hw, hle⟩
  exact h.budget (Nat.le_zero.1 hle ▸ hw)

namespace Machine

/-! ### The two halves of the invariant -/

/-- What the invariant says whatever the phase. -/
structure RunInv (s : State) : Prop where
  admissible : s.params.Admissible
  bits : s.bitIdx.toNat ≤ 40
  handle : s.handle = .null ∨ s.runHandle = some s.handle
  run : ∀ h ∈ s.runHandle, h.single = true
  measured : s.measValid = true → s.status = .ok ∧ checksumOk s.payload = true ∧
    s.hRaw = some (humidityOf s.payload) ∧ s.tRaw = some (temperatureOf s.payload)
  okMeasured : s.status = .ok → s.hRaw.isSome = true ∧ s.tRaw.isSome = true

/-- A READ in progress: its handle is valid, and there is no valid measurement. -/
def Reading (s : State) : Prop := s.handle.valid = true ∧ s.measValid = false

/-- Nothing is stored yet. -/
def Unstored (s : State) : Prop := s.bitIdx.toNat = 0 ∧ s.payload = .zero

/-- The pad is an output, with this in the latch. -/
def Drives (v : Option Level) (s : State) : Prop := s.lineDir = .output ∧ s.lineDrv = v

/-- The pad is an input, with the high level in the latch. -/
def Listens (s : State) : Prop := s.lineDir = .input ∧ s.lineDrv = some .high

/-- A wait may poll again. -/
def MayPoll (s : State) : Prop := s.params.budgetMet s.waitCnt = false

/-- Ok stands beside a valid measurement. -/
def OkIsMeasured (s : State) : Prop := s.status = .ok → s.measValid = true

/-- What the invariant says in each phase, `DONE` aside. -/
def PhaseInv (s : State) : Phase → Prop
  | .idle | .dWait => OkIsMeasured s
  | .rSetout => Reading s ∧ Unstored s
  | .rDrvLow => Reading s ∧ Unstored s ∧ Drives none s
  | .rLowHold => Reading s ∧ Unstored s ∧ Drives (some .low) s ∧ s.delayCnt ≤ s.params.nl
  | .rDrvHigh => Reading s ∧ Unstored s ∧ Drives (some .low) s
  | .rHighHold => Reading s ∧ Unstored s ∧ Drives (some .high) s ∧ s.delayCnt ≤ s.params.nr
  | .rRelease => Reading s ∧ Unstored s ∧ Drives (some .high) s
  | .rHs1 | .rHs2 | .rHs3 => Reading s ∧ Listens s ∧ MayPoll s ∧ Unstored s
  | .rBitLow => Reading s ∧ Listens s ∧ MayPoll s ∧ s.bitIdx.toNat < 40
  | .rBitDly => Reading s ∧ Listens s ∧ s.bitIdx.toNat < 40 ∧ s.delayCnt ≤ s.params.ns
  | .rBitSample => Reading s ∧ Listens s ∧ s.bitIdx.toNat < 40
  | .rBitHigh => Reading s ∧ Listens s ∧ MayPoll s ∧ s.bitIdx.toNat ≤ 40
  | .rValidate => Reading s ∧ Listens s ∧ s.bitIdx.toNat = 40
  | .rTimeout => Reading s ∧ Listens s

/-! ### The invariant is its two halves -/

section PhaseFacts

variable {s : State} {p : Phase} (h : PhaseInv s p)
include h

theorem PhaseInv.reading (hp : p.isRead = true) : Reading s := by
  cases p
  case idle | dWait => cases hp
  all_goals exact h.1

theorem PhaseInv.unstored
    (hp : p ∈ [Phase.rSetout, .rDrvLow, .rLowHold, .rDrvHigh, .rHighHold, .rRelease, .rHs1, .rHs2, .rHs3]) :
    Unstored s := by
  cases p
  case rSetout => obtain ⟨-, unstored⟩ := h; exact unstored
  case rDrvLow | rLowHold | rDrvHigh | rHighHold | rRelease => obtain ⟨-, unstored, -⟩ := h; exact unstored
  case rHs1 | rHs2 | rHs3 => obtain ⟨-, -, -, unstored⟩ := h; exact unstored
  all_goals simp at hp

theorem PhaseInv.driving (hp : p.drives = true) : s.lineDir = .output := by
  cases p
  case rDrvLow | rDrvHigh | rRelease => obtain ⟨-, -, dir, -⟩ := h; exact dir
  case rLowHold | rHighHold => obtain ⟨-, -, ⟨dir, -⟩, -⟩ := h; exact dir
  all_goals cases hp

theorem PhaseInv.listening (hp : p.listens = true) : Listens s := by
  cases p
  case rTimeout => obtain ⟨-, listens⟩ := h; exact listens
  case rHs1 | rHs2 | rHs3 | rBitLow | rBitDly | rBitSample | rBitHigh | rValidate =>
    obtain ⟨-, listens, -⟩ := h
    exact listens
  all_goals cases hp

theorem PhaseInv.mayPoll (hp : p.held.isSome = true) : MayPoll s := by
  cases p
  case rHs1 | rHs2 | rHs3 | rBitLow | rBitHigh => obtain ⟨-, -, mayPoll, -⟩ := h; exact mayPoll
  all_goals cases hp

theorem PhaseInv.moreBits (hp : p ∈ [Phase.rBitLow, .rBitDly, .rBitSample]) : s.bitIdx.toNat < 40 := by
  cases p
  case rBitLow => obtain ⟨-, -, -, more⟩ := h; exact more
  case rBitDly => obtain ⟨-, -, more, -⟩ := h; exact more
  case rBitSample => obtain ⟨-, -, more⟩ := h; exact more
  all_goals simp at hp

theorem PhaseInv.okIsMeasured (hp : p.isRead = false) : OkIsMeasured s := by
  cases p
  case idle | dWait => exact h
  all_goals cases hp

end PhaseFacts

/-- The invariant gives what holds in the phase of the state. -/
theorem Inv.phaseInv {s : State} (h : Inv s) : PhaseInv s s.phase := by
  have reading (hp : s.phase.isRead = true) : Reading s := ⟨h.reading hp, h.pending hp⟩
  have drives (hp : s.phase.drives = true) {v : Option Level} (hv : s.lineDrv = v) : Drives v s := ⟨h.driving hp, hv⟩
  obtain ⟨lowHold, highHold, bitDly⟩ := h.delays
  cases hp : s.phase
  case idle | dWait => exact fun hok => h.outcome hok (hp ▸ rfl)
  case rSetout => exact ⟨reading (hp ▸ rfl), h.fresh (by simp [hp])⟩
  case rDrvLow => exact ⟨reading (hp ▸ rfl), h.fresh (by simp [hp]), drives (hp ▸ rfl) (h.undriven hp)⟩
  case rLowHold =>
    exact ⟨reading (hp ▸ rfl), h.fresh (by simp [hp]), drives (hp ▸ rfl) (h.low (.inl hp)), lowHold hp⟩
  case rDrvHigh => exact ⟨reading (hp ▸ rfl), h.fresh (by simp [hp]), drives (hp ▸ rfl) (h.low (.inr hp))⟩
  case rHighHold =>
    exact ⟨reading (hp ▸ rfl), h.fresh (by simp [hp]), drives (hp ▸ rfl) (h.high (.inl hp)), highHold hp⟩
  case rRelease => exact ⟨reading (hp ▸ rfl), h.fresh (by simp [hp]), drives (hp ▸ rfl) (h.high (.inr hp))⟩
  case rHs1 | rHs2 | rHs3 =>
    exact ⟨reading (hp ▸ rfl), h.listening (hp ▸ rfl), h.budget (hp ▸ rfl), h.fresh (by simp [hp])⟩
  case rBitLow => exact ⟨reading (hp ▸ rfl), h.listening (hp ▸ rfl), h.budget (hp ▸ rfl), h.more (by simp [hp])⟩
  case rBitDly => exact ⟨reading (hp ▸ rfl), h.listening (hp ▸ rfl), h.more (by simp [hp]), bitDly hp⟩
  case rBitSample => exact ⟨reading (hp ▸ rfl), h.listening (hp ▸ rfl), h.more (by simp [hp])⟩
  case rBitHigh => exact ⟨reading (hp ▸ rfl), h.listening (hp ▸ rfl), h.budget (hp ▸ rfl), h.bits⟩
  case rValidate => exact ⟨reading (hp ▸ rfl), h.listening (hp ▸ rfl), h.whole hp⟩
  case rTimeout => exact ⟨reading (hp ▸ rfl), h.listening (hp ▸ rfl)⟩

/-- The invariant is its two halves, with `DONE` shown in IDLE alone. -/
theorem inv_iff (s : State) : Inv s ↔ RunInv s ∧ PhaseInv s s.phase ∧ (s.done = true → s.phase = .idle) := by
  refine ⟨fun h => ⟨{ h with }, h.phaseInv, h.strobe⟩, fun ⟨hrun, hphase, hdone⟩ => ?_⟩
  have at_phase {p : Phase} (hp : s.phase = p) : PhaseInv s p := hp ▸ hphase
  exact
    { hrun with
      fresh := hphase.unstored
      more := hphase.moreBits
      whole := fun hp => have ⟨_, _, whole⟩ := at_phase hp; whole
      reading := fun hp => (hphase.reading hp).1
      pending := fun hp => (hphase.reading hp).2
      driving := hphase.driving
      listening := hphase.listening
      undriven := fun hp => have ⟨_, _, _, drv⟩ := at_phase hp; drv
      low := fun hp => hp.elim (fun hp => have ⟨_, _, ⟨_, drv⟩, _⟩ := at_phase hp; drv)
        (fun hp => have ⟨_, _, _, drv⟩ := at_phase hp; drv)
      high := fun hp => hp.elim (fun hp => have ⟨_, _, ⟨_, drv⟩, _⟩ := at_phase hp; drv)
        (fun hp => have ⟨_, _, _, drv⟩ := at_phase hp; drv)
      budget := hphase.mayPoll
      delays := ⟨fun hp => have ⟨_, _, _, le⟩ := at_phase hp; le, fun hp => have ⟨_, _, _, le⟩ := at_phase hp; le,
        fun hp => have ⟨_, _, _, le⟩ := at_phase hp; le⟩
      strobe := hdone
      outcome := fun hok hp => hphase.okIsMeasured hp hok }

/-! ### Every cycle keeps what holds in the phase -/

/-- A poll that stays below the budget keeps what holds in its wait. -/
theorem PhaseInv.polls {s : State} {v : Level} (hi : PhaseInv s s.phase) (hv : s.phase.held = some v)
    (below : s.params.budgetMet (s.waitCnt + 1) = false) :
    PhaseInv { s.nextCycle with waitCnt := s.waitCnt + 1 } s.phase := by
  cases hp : s.phase <;> rw [hp] at hi hv
  case rHs1 | rHs2 | rHs3 | rBitLow | rBitHigh =>
    obtain ⟨reading, listens, -, stored⟩ := hi
    exact ⟨reading, listens, below, stored⟩
  all_goals cases hv

/-- A count keeps what holds in its phase. -/
theorem PhaseInv.counts {s : State} (hi : PhaseInv s s.phase)
    (hp : s.phase ∈ [Phase.dWait, .rLowHold, .rHighHold, .rBitDly]) :
    PhaseInv { s.nextCycle with delayCnt := s.delayCnt - 1 } s.phase := by
  simp only [List.mem_cons, List.not_mem_nil, or_false] at hp
  obtain hp | hp | hp | hp := hp <;> rw [hp] at hi ⊢
  · exact hi
  all_goals
    obtain ⟨reading, pad, stored, le⟩ := hi
    exact ⟨reading, pad, stored, (Nat.sub_le ..).trans le⟩

/-- The bit counter after a sample inside the frame (rule R145). -/
theorem bitIdx_succ_toNat {k : BitCount} (h : k.toNat < 40) : (k + 1).toNat = k.toNat + 1 := by
  bv_omega

/-- A wait is a phase of a READ after the release of the line. -/
theorem reads_and_listens_of_held {p : Phase} {v : Level} (hv : p.held = some v) : p.isRead = true ∧ p.listens = true := by
  cases p
  case rHs1 | rHs2 | rHs3 | rBitLow | rBitHigh => exact ⟨rfl, rfl⟩
  all_goals cases hv

/-- Every cycle without reset leads from what holds in its phase to what holds in the next. -/
theorem Cycle.keeps_phaseInv {s t : State} (h : Cycle s t) (adm : s.params.Admissible) (hi : PhaseInv s s.phase) :
    PhaseInv t t.phase := by
  have zero := adm.budgetMet_zero
  cases h with
  | quiet phase => exact hi
  | delay accepted => rw [accepted.1] at hi; exact hi
  | setout accepted | setin accepted =>
    rw [accepted.1] at hi
    intro hok
    simpa using hi (by simpa using hok)
  | readStarts _ _ valid => exact ⟨⟨by simp [valid], by simp⟩, rfl, rfl⟩
  | readFails => exact fun hok => absurd hok adm.invalidStatus
  | counts phase => exact hi.counts phase
  | delayEnds phase => rw [phase] at hi; exact hi
  | countEnds next phase =>
    simp only [List.mem_cons, List.not_mem_nil, or_false, Prod.mk.injEq] at phase
    obtain ⟨hp, rfl⟩ | ⟨hp, rfl⟩ | ⟨hp, rfl⟩ := phase
    all_goals
      rw [hp] at hi
      obtain ⟨reading, pad, stored, -⟩ := hi
      exact ⟨reading, pad, stored⟩
  | turnsOutward phase =>
    rw [phase] at hi
    obtain ⟨reading, unstored⟩ := hi
    rw [State.setOutput_of_valid reading.1]
    exact ⟨reading, unstored, rfl, rfl⟩
  | drivesLow phase | drivesHigh phase =>
    rw [phase] at hi
    obtain ⟨reading, unstored, drives⟩ := hi
    exact ⟨reading, unstored, ⟨drives.1, rfl⟩, le_rfl⟩
  | turnsInward phase =>
    rw [phase] at hi
    obtain ⟨reading, unstored, drives⟩ := hi
    rw [State.setInput_of_valid reading.1]
    exact ⟨reading, ⟨rfl, drives.2⟩, zero, unstored⟩
  | polls v wait below => exact hi.polls wait below
  | waitTimesOut v wait =>
    obtain ⟨reads, listens⟩ := reads_and_listens_of_held wait
    exact ⟨hi.reading reads, hi.listening listens⟩
  | handshakeEnds next phase =>
    simp only [List.mem_cons, List.not_mem_nil, or_false, Prod.mk.injEq] at phase
    obtain ⟨hp, rfl⟩ | ⟨hp, rfl⟩ | ⟨hp, rfl⟩ := phase
    all_goals rw [hp] at hi; obtain ⟨reading, listens, -, unstored⟩ := hi
    · exact ⟨reading, listens, zero, unstored⟩
    · exact ⟨reading, listens, zero, unstored⟩
    · exact ⟨reading, listens, zero, unstored.1.trans_lt (by decide)⟩
  | bitLowEnds phase =>
    rw [phase] at hi
    obtain ⟨reading, listens, -, more⟩ := hi
    exact ⟨reading, listens, more, le_rfl⟩
  | samples phase inFrame =>
    rw [phase] at hi
    obtain ⟨reading, listens, more⟩ := hi
    exact ⟨reading, listens, zero, (bitIdx_succ_toNat more).trans_le more⟩
  | nextBit phase notLast =>
    rw [phase] at hi
    obtain ⟨reading, listens, -, le⟩ := hi
    exact ⟨reading, listens, zero, lt_of_le_of_ne le notLast⟩
  | lastBit phase last =>
    rw [phase] at hi
    obtain ⟨reading, listens, -, -⟩ := hi
    exact ⟨reading, listens, last⟩
  | publishes => exact fun _ => rfl
  | rejects | timesOut => exact fun hok => absurd hok nofun

/-! ### Every cycle keeps what holds in all phases -/

/-- `DONE` is shown in IDLE alone (rules R30, R209). -/
theorem Cycle.idle_of_done {s t : State} (h : Cycle s t) (hd : t.done = true) : t.phase = .idle := by
  cases h with
  | setout | setin | readFails | delayEnds | publishes | rejects | timesOut => rfl
  | _ => simp at hd

/-- Which handles the model gives a meaning depends on the handle of the run alone (rule R233). -/
theorem handleOk_congr {s t : State} {h : Handle} (hrun : t.runHandle = s.runHandle) : HandleOk h t ↔ HandleOk h s := by
  rw [HandleOk, hrun]

/-- Latching a handle that the model gives a meaning keeps what holds in all phases. -/
theorem RunInv.latchHandle {s : State} {h : Handle} (hi : RunInv s) (ok : HandleOk h s) : RunInv (s.latchHandle h) := by
  cases valid : h.valid
  · rwa [State.latchHandle_of_invalid valid]
  · have single : h.single = true := by
      obtain invalid | ⟨pin, -⟩ := ok
      · exact absurd (invalid.symm.trans valid) nofun
      · rw [Handle.single, valid, pin, Bool.true_and]
    rw [State.latchHandle_of_valid valid]
    exact { hi with handle := .inr rfl, run := fun g hg => Option.some.inj hg ▸ single }

/-- The pad is no part of what holds in all phases. -/
theorem RunInv.setOutput {s : State} (hi : RunInv s) (h : Handle) : RunInv (s.setOutput h) := by
  unfold State.setOutput
  split
  · exact { hi with }
  · exact hi

@[inherit_doc RunInv.setOutput]
theorem RunInv.setInput {s : State} (hi : RunInv s) (h : Handle) : RunInv (s.setInput h) := by
  unfold State.setInput
  split
  · exact { hi with }
  · exact hi

/-- Every cycle without reset keeps what holds in all phases. -/
theorem Cycle.keeps_runInv {s t : State} (h : Cycle s t) (hi : RunInv s) (hphase : PhaseInv s s.phase) : RunInv t := by
  have next : RunInv s.nextCycle := { hi with }
  cases h with
  | setout _ ok => exact { (next.setOutput _).latchHandle ((handleOk_congr (by simp)).2 ok) with }
  | setin _ ok => exact { (next.setInput _).latchHandle ((handleOk_congr (by simp)).2 ok) with }
  | readStarts _ ok =>
    have cleared : RunInv s.nextCycle.clearMeasValid := { next with measured := nofun }
    exact { cleared.latchHandle ok with bits := Nat.zero_le 40, measured := fun hm => by simp at hm }
  | readFails =>
    exact { next with measured := nofun, okMeasured := fun hok => absurd hok hi.admissible.invalidStatus }
  | turnsOutward => exact { next.setOutput _ with }
  | turnsInward => exact { next.setInput _ with }
  | samples phase inFrame =>
    have reading := hphase.reading (by rw [phase]; rfl)
    exact { next with
      bits := (bitIdx_succ_toNat inFrame).trans_le inFrame
      measured := fun hm => absurd (reading.2.symm.trans hm) nofun }
  | publishes _ good =>
    exact { next with measured := fun _ => ⟨rfl, good, rfl, rfl⟩, okMeasured := fun _ => ⟨rfl, rfl⟩ }
  | rejects phase =>
    have reading := hphase.reading (by rw [phase]; rfl)
    exact { next with measured := fun hm => absurd (reading.2.symm.trans hm) nofun, okMeasured := nofun }
  | timesOut phase =>
    have reading := hphase.reading (by rw [phase]; rfl)
    exact { next.setInput _ with
      measured := fun hm => by simp [reading.2] at hm
      okMeasured := nofun }
  | _ => exact { next with }

/-- Every cycle without reset keeps the invariant. -/
theorem Cycle.keeps_inv {s t : State} (h : Cycle s t) (hi : Inv s) : Inv t := by
  obtain ⟨hrun, hphase, -⟩ := (inv_iff s).1 hi
  exact (inv_iff t).2 ⟨h.keeps_runInv hrun hphase, h.keeps_phaseInv hrun.admissible hphase, h.idle_of_done⟩

/-- A reset cycle leads to the invariant in a run whose handle is one the model gives a meaning. -/
theorem inv_resetCycle {s : State} (adm : s.params.Admissible) (hrun : ∀ h ∈ s.runHandle, h.single = true) :
    Inv s.resetCycle :=
  (inv_iff _).2
    ⟨{ admissible := adm, bits := Nat.zero_le 40, handle := .inl rfl, run := hrun,
       measured := nofun, okMeasured := nofun }, fun hok => absurd hok nofun, nofun⟩

/-! ### No cycle stops under the invariant but on a refused handle -/

/-- A busy block goes on, given that a sample is inside the frame. -/
theorem step_next_of_busy {s : State} (hr : s.input.rst = false) (hp : s.phase ≠ .idle)
    (inFrame : s.phase = .rBitSample → s.bitIdx.toNat < 40) : ∃ t, step s = .next t := by
  rw [step_of_busy hr hp]
  cases hph : s.phase
  case idle => exact absurd hph hp
  case rBitSample => exact ⟨_, exec_rBitSample_of_lt (inFrame hph)⟩
  all_goals exact ⟨_, rfl⟩

/-- A command goes on when it is a DELAY or its handle is one the model gives a meaning. -/
theorem exec_cmdInstr_next {s : State} {op : OpCode} {port : PortId} {pin : PinMask} (us : Micros)
    (h : op = 0 ∨ HandleOk ⟨port, pin⟩ s) : ∃ t, exec (cmdInstr op port pin us) s = .next t := by
  unfold cmdInstr
  split_ifs with h0
  · exact ⟨_, exec_delay port pin us s⟩
  all_goals have ok := h.resolve_left h0
  · exact ⟨_, (exec_setout_next_iff ..).2 ⟨ok, rfl⟩⟩
  · exact ⟨_, (exec_setin_next_iff ..).2 ⟨ok, rfl⟩⟩
  · exact ⟨_, (exec_read_next_iff ..).2 ⟨ok, rfl⟩⟩

/-- No command faults. -/
theorem exec_cmdInstr_ne_fault (op : OpCode) (port : PortId) (pin : PinMask) (us : Micros) (s : State) (r : Fault) :
    exec (cmdInstr op port pin us) s ≠ .fault r := by
  unfold cmdInstr
  split_ifs
  · nofun
  all_goals
    simp only [exec, execSetout, execSetin, execRead]
    exact onLine_ne_fault _ _ _ r

end Machine

open Machine

/-- Settles O10: the registers are those of the definition, the parameters are admissible. -/
theorem resetStateIsTheSpecs : Obligations.ResetStateIsTheSpecs :=
  ⟨rfl, rfl, rfl, rfl, rfl, rfl, rfl, rfl, rfl, rfl, rfl, rfl, rfl, rfl, rfl, rfl, Config.params_admissible⟩

/-- Settles O45: the reset state has no handle, no measurement and a status other than Ok. -/
theorem resetMeetsTheInvariant : Obligations.ResetMeetsTheInvariant :=
  (inv_iff _).2
    ⟨{ admissible := Config.params_admissible, bits := Nat.zero_le 40, handle := .inl rfl, run := nofun,
       measured := nofun, okMeasured := nofun }, fun hok => absurd hok nofun, nofun⟩

/-- Settles O46: a reset cycle leads to the invariant (`inv_resetCycle`), and every other cycle keeps its two halves
(`Cycle.keeps_inv`). -/
theorem everyStepKeepsTheInvariant : Obligations.EveryStepKeepsTheInvariant := by
  intro s t hi h
  cases hr : s.input.rst
  · have hc := cycle_of_step hr h
    exact ⟨hc.keeps_inv hi, hc.params_eq⟩
  · obtain rfl := Host.Outcome.next.inj ((step_of_reset hr).symm.trans h)
    exact ⟨inv_resetCycle hi.admissible hi.run, rfl⟩

/-- Settles O47: under the invariant a sample is inside the frame, so a busy block goes on; in IDLE a command never
faults, and goes on unless its handle is refused. -/
theorem stepsGoOnUnderTheInvariant : Obligations.StepsGoOnUnderTheInvariant := by
  intro s hi
  cases hr : s.input.rst
  case true => exact ⟨fun _ => ⟨_, step_of_reset hr⟩, by simp [step_of_reset hr]⟩
  by_cases hp : s.phase = .idle
  case neg =>
    obtain ⟨t, ht⟩ := step_next_of_busy hr hp fun hs => hi.more (by simp [hs])
    exact ⟨fun _ => ⟨t, ht⟩, by simp [ht]⟩
  cases hv : s.input.cmdValid
  case false => exact ⟨fun _ => ⟨_, step_of_idle_quiet hr hp hv⟩, by simp [step_of_idle_quiet hr hp hv]⟩
  rw [step_of_accepts hr hp hv]
  refine ⟨fun h => exec_cmdInstr_next _ ?_, exec_cmdInstr_ne_fault _ _ _ _ s⟩
  simpa [hp] using h

/-- Settles O60: the threshold has a value only for a valid measurement (`isAboveThreshold_eq_some_iff`), whose
temperature is then shown. -/
theorem readAlarmConflatesStatusAndThreshold : Obligations.ReadAlarmConflatesStatusAndThreshold := by
  intro s _
  have status : (outputs s).status = Status.ok.code ↔ s.status = .ok := by
    change s.status.code = _ ↔ _
    cases s.status <;> decide
  have shown : isAboveThreshold (outputs s) = some true ↔
      s.measValid = true ∧ ∃ t, s.tRaw = some t ∧ tempAbove t = true := by
    rw [isAboveThreshold_eq_some_iff]
    refine and_congr_right fun valid => ?_
    rw [show (outputs s).tRaw = s.tRaw from if_pos valid]
  rw [readAlarm, Bool.and_eq_true, beq_iff_eq, status, Option.getD_eq_iff, shown]
  simp

end Sys2Proof
end

section
/-! Proofs about runs of several cycles: a DELAY takes `Ncyc + 2` cycles (rules R104, R106), and a bit is the level of
the line `NS + 2` cycles after the poll that first reads high (rules R153, R154, R248). Both count one delay down, with
the state written out in every cycle (`countingPhase_run`). -/

namespace Sys2Proof

namespace Machine

/-! ### Counting down with the state written out -/

/-- A run of one cycle more ends with a step. -/
theorem runFor_succ_right {s t u : State} {n : Nat} (h : runFor n s = .next t) (hs : step t = .next u) :
    runFor (n + 1) s = .next u := by
  rw [runFor_add h 1, runFor_succ hs, runFor_zero]

/-- The state a counting phase is in after `n` counts. -/
def State.counted (s : State) (n : Nat) : State :=
  { s with delayCnt := s.delayCnt - n, done := false, inputs := s.inputs.drop n, cycle := s.cycle + n }

/-- The input record after `n` counts is that of `n` cycles later. -/
theorem State.counted_input (s : State) (n : Nat) : (s.counted n).input = s.inputAt n :=
  State.inputAt_add (m := n) rfl rfl 0

/-- The cycle after `n` counts goes on to the records and the number of the cycle after that. -/
theorem State.nextCycle_counted (s : State) (n : Nat) :
    (s.counted n).nextCycle = { s.counted (n + 1) with delayCnt := s.delayCnt - n } := by
  simp only [State.counted, State.nextCycle, State.clearDone, List.tail_drop, Nat.add_assoc]

section CountingPhase

variable {p : Phase} {exit : State → State} (row : ∀ s : State, exec p.toInstr s = .next (s.countDown exit))
  (hidle : p ≠ .idle) {s : State} (hp : s.phase = p)
include row hidle hp

/-- After `n` counts a cycle without reset runs the row of the counting phase. -/
theorem step_counted {n : Nat} (hr : (s.inputAt n).rst = false) :
    step (s.counted n) = .next ((s.counted n).countDown exit) := by
  have hphase : (s.counted n).phase = p := hp
  rw [step_of_busy ((congrArg Input.rst (s.counted_input n)).trans hr) (hphase ▸ hidle), hphase, row]

/-- Without reset a counting phase only counts, for as many cycles as its counter holds (rules R103, R107). -/
theorem countingPhase_run {n : Nat} (hd : s.done = false) (hr : NoResetFor s n) (hn : n ≤ s.delayCnt) :
    runFor n s = .next (s.counted n) := by
  induction n with
  | zero => simp [State.counted, ← hd]
  | succ n ih =>
    refine runFor_succ_right (ih (fun k hk => hr k (by omega)) (by omega)) ?_
    rw [step_counted row hidle hp (hr n n.lt_succ_self), State.countDown_of_ne_zero _ (Nat.sub_ne_zero_of_lt hn),
      State.nextCycle_counted]
    rfl

/-- Without reset a counting phase ends, by its exit, one cycle after its counter has run out. -/
theorem countingPhase_ends (hd : s.done = false) (hr : NoResetFor s (s.delayCnt + 1)) :
    runFor (s.delayCnt + 1) s = .next (exit (s.counted (s.delayCnt + 1))) := by
  refine runFor_succ_right (countingPhase_run row hidle hp hd (fun k hk => hr k (by omega)) le_rfl) ?_
  rw [step_counted row hidle hp (hr _ (Nat.lt_succ_self _)), State.countDown_of_eq_zero _ (Nat.sub_self _),
    State.nextCycle_counted]
  simp [State.counted]

/-- A counting phase entered by this cycle ends two cycles after its counter has run out, the first of them this one. -/
theorem countingPhase_ends_after {r : State} (entered : step r = .next s) (hi : s.inputs = r.inputs.tail)
    (hc : s.cycle = r.cycle + 1) (hd : s.done = false) (hr : NoResetFor r (s.delayCnt + 2)) :
    runFor (s.delayCnt + 2) r = .next (exit (s.counted (s.delayCnt + 1))) := by
  rw [runFor_succ entered]
  exact countingPhase_ends row hidle hp hd (hr.succ hi hc)

end CountingPhase

/-! ### The sampled bit -/

/-- A poll of R_BIT_LOW that reads high is followed, `NS + 2` cycles later, by the sample, with nothing stored in
between (rules R143, R144). -/
theorem sample_is_due {s : State} (hp : s.phase = .rBitLow) (high : s.input.lineIn = .high)
    (hr : NoResetFor s (s.params.ns + 2)) :
    ∃ t, runFor (s.params.ns + 2) s = .next t ∧ t.phase = .rBitSample ∧ t.bitIdx = s.bitIdx ∧ t.payload = s.payload ∧
      t.input = s.inputAt (s.params.ns + 2) := by
  have hpoll : step s = .next ((s.nextCycle.clearWait.loadDelay s.params.ns).goto .rBitDly) := by
    rw [step_of_busy (hr 0 (by omega)) (hp ▸ nofun), hp]
    exact exec_rBitLow_of_high high
  refine ⟨_, countingPhase_ends_after (p := .rBitDly) exec_rBitDly nofun rfl hpoll rfl rfl rfl hr, rfl, rfl, rfl, ?_⟩
  exact State.inputAt_add (m := s.params.ns + 2) (by simp [State.counted]) (by simp [State.counted]; omega) 0

/-- The level of the line at the sample is stored by the end of it (rule R145). -/
theorem sampled_bit_is_stored {s : State} (hp : s.phase = .rBitLow) (high : s.input.lineIn = .high)
    (inFrame : s.bitIdx.toNat < 40) (hr : NoResetFor s (s.params.ns + 3)) :
    ∃ t, runFor (s.params.ns + 3) s = .next t ∧ t.phase = .rBitHigh ∧ t.bitIdx = s.bitIdx + 1 ∧
      t.payload = assembleBit s.bitIdx.toNat (s.inputAt (s.params.ns + 2)).lineIn.bit s.payload := by
  obtain ⟨t, hrun, hphase, hbit, hpayload, hinput⟩ := sample_is_due hp high fun k hk => hr k (by omega)
  rw [← hbit, ← hpayload, ← hinput]
  have hsample : step t = .next (((t.nextCycle.storeBit t.input.lineIn).clearWait).goto .rBitHigh) := by
    rw [step_of_busy (hinput ▸ hr _ (by omega)) (hphase ▸ nofun), hphase]
    exact exec_rBitSample_of_lt (hbit ▸ inFrame)
  exact ⟨_, runFor_succ_right hrun hsample, rfl, rfl, rfl⟩

end Machine

open Machine

/-- Settles O16: the acceptance loads the counter (`exec_delay`), D_WAIT counts it down (`countingPhase_run`) and
completes (`countingPhase_ends_after`). -/
theorem delayCompletesOnTime : Obligations.DelayCompletesOnTime := by
  intro s hp hv hop hr
  have haccept : step s = .next ((s.nextCycle.loadDelay (ncyc s.params s.input.cmdUs.toNat)).goto .dWait) := by
    rw [step_of_accepts (hr 0 (by omega)) hp hv, hop]
    exact exec_delay ..
  refine ⟨fun k hpos hk => ?_, ?_⟩
  · obtain ⟨m, rfl⟩ := Nat.exists_eq_add_of_le' hpos
    have hm : m ≤ ncyc s.params s.input.cmdUs.toNat := by omega
    rw [runFor_succ haccept]
    exact ⟨_, countingPhase_run (p := .dWait) exec_dWait nofun rfl rfl
      (NoResetFor.succ (fun j hj => hr j (by omega)) rfl rfl) hm, rfl, rfl⟩
  · refine (countingPhase_ends_after (p := .dWait) exec_dWait nofun rfl haccept rfl rfl rfl hr).trans ?_
    simp [State.counted, State.complete, State.goto, State.loadDelay, State.nextCycle, State.clearDone, hp]
    omega

/-- Settles O57: the poll and the delay of `sample_is_due`, then the sample. -/
theorem bitIsSampledAfterTheDelay : Obligations.BitIsSampledAfterTheDelay :=
  fun _ hp high inFrame hr => sampled_bit_is_stored hp high inFrame hr

/-- Settles O58: the sample, `NS + 2` cycles after the first poll that reads high, is still in the pulse exactly when
the pulse is at least `NS + 3` cycles wide. -/
theorem pulseWidthDecidesTheBit : Obligations.PulseWidthDecidesTheBit := by
  intro s width hp inFrame hwidth high low hr
  obtain ⟨t, hrun, -, -, stored⟩ := sampled_bit_is_stored hp (high 0 hwidth) inFrame hr
  have level : (s.inputAt (s.params.ns + 2)).lineIn.bit = pulseReadAsOne s.params width := by
    rw [pulseReadAsOne]
    by_cases hlong : s.params.ns + 3 ≤ width
    · rw [high _ (by omega), decide_eq_true hlong, Level.bit]
    · rw [low _ (by omega) (by omega), decide_eq_false hlong, Level.bit]
  exact ⟨t, hrun, level ▸ stored⟩

end Sys2Proof
end

section
/-! Proofs that a READ with a finite budget completes within its bound, whatever the line does (rules R150 to R152). A
measure bounds the cycles still to come (`remaining`); each cycle of a READ lowers it or ends the READ, from what holds
in the phase (`PhaseInv`) alone. -/

namespace Sys2Proof

namespace Machine

/-! ### The cycles still to come -/

/-- The most cycles that `k` more bits with a budget of `w` and the validation after them take (rule R152). -/
def bitsLeft (p : Params) (w k : Nat) : Nat := k * (2 * w + p.ns + 2) + 1

/-- The most cycles a READ with a budget of `w` still takes, in each phase by the counter of the phase. -/
def remaining (w : Nat) (s : State) : Phase → Nat
  | .idle | .dWait => 0
  | .rSetout => s.params.nl + s.params.nr + 6 + 3 * w + bitsLeft s.params w 40
  | .rDrvLow => s.params.nl + s.params.nr + 5 + 3 * w + bitsLeft s.params w 40
  | .rLowHold => s.delayCnt + s.params.nr + 4 + 3 * w + bitsLeft s.params w 40
  | .rDrvHigh => s.params.nr + 3 + 3 * w + bitsLeft s.params w 40
  | .rHighHold => s.delayCnt + 2 + 3 * w + bitsLeft s.params w 40
  | .rRelease => 1 + 3 * w + bitsLeft s.params w 40
  | .rHs1 => w - s.waitCnt + 2 * w + bitsLeft s.params w 40
  | .rHs2 => w - s.waitCnt + w + bitsLeft s.params w 40
  | .rHs3 => w - s.waitCnt + bitsLeft s.params w 40
  | .rBitLow => w - s.waitCnt + s.params.ns + 2 + w + bitsLeft s.params w (39 - s.bitIdx.toNat)
  | .rBitDly => s.delayCnt + 2 + w + bitsLeft s.params w (39 - s.bitIdx.toNat)
  | .rBitSample => 1 + w + bitsLeft s.params w (39 - s.bitIdx.toNat)
  | .rBitHigh => w - s.waitCnt + bitsLeft s.params w (40 - s.bitIdx.toNat)
  | .rValidate | .rTimeout => 1

/-- One bit more is its two waits, its delay and its sample. -/
theorem bitsLeft_succ (p : Params) (w k : Nat) : bitsLeft p w (k + 1) = 2 * w + p.ns + 2 + bitsLeft p w k := by
  rw [bitsLeft, bitsLeft, Nat.succ_mul]
  omega

/-- The validation is always to come. -/
theorem bitsLeft_pos (p : Params) (w k : Nat) : 0 < bitsLeft p w k := Nat.succ_pos _

/-- The bound is the cycle of the acceptance with the measure of what it starts. -/
theorem remaining_rSetout (w : Nat) (s : State) : remaining w s .rSetout + 1 = readBound s.params w := by
  rw [remaining, bitsLeft, readBound]
  omega

section Budget

variable {s t : State} {w : Nat} (hw : s.params.waitBudget = some w)
include hw

/-- With a budget of `w`, a wait that may poll again has polled less than `w` times. -/
theorem waitCnt_lt_of_mayPoll (h : MayPoll s) : s.waitCnt < w := by
  by_contra hle
  exact absurd (h.symm.trans ((Params.budgetMet_iff _ _).2 ⟨w, hw, not_lt.1 hle⟩)) nofun

/-- A poll lowers the measure of its wait, and a time-out finds enough of it left for R_TIMEOUT. -/
theorem remaining_of_held {v : Level} (hv : s.phase.held = some v) (hi : PhaseInv s s.phase) :
    remaining w { s.nextCycle with waitCnt := s.waitCnt + 1 } s.phase < remaining w s s.phase ∧
    1 < remaining w s s.phase := by
  have hlt := waitCnt_lt_of_mayPoll hw (hi.mayPoll (hv ▸ rfl))
  have hpos := bitsLeft_pos s.params w
  cases hp : s.phase <;> rw [hp] at hv
  case rHs1 | rHs2 | rHs3 =>
    have := hpos 40
    simp [remaining]
    omega
  case rBitLow =>
    simp [remaining]
    omega
  case rBitHigh =>
    have := hpos (40 - s.bitIdx.toNat)
    simp [remaining]
    omega
  all_goals cases hv

/-- A cycle after which the READ still goes on lowers the measure. -/
theorem Cycle.remaining_lt (h : Cycle s t) (hs : s.phase.isRead = true) (ht : t.phase.isRead = true)
    (hi : PhaseInv s s.phase) : remaining w t t.phase < remaining w s s.phase := by
  have polled (hv : s.phase.held.isSome = true) : s.waitCnt < w := waitCnt_lt_of_mayPoll hw (hi.mayPoll hv)
  cases h with
  | quiet phase | delayEnds phase => exact absurd (phase ▸ hs) nofun
  | delay accepted | setout accepted | setin accepted | readStarts accepted | readFails accepted =>
    exact absurd (accepted.1 ▸ hs) nofun
  | publishes | rejects | timesOut => cases ht
  | counts phase pos =>
    simp only [List.mem_cons, List.not_mem_nil, or_false] at phase
    obtain hp | hp | hp | hp := phase
    · exact absurd (hp ▸ hs) nofun
    all_goals
      simp [hp, remaining]
      omega
  | countEnds next phase zero =>
    simp only [List.mem_cons, List.not_mem_nil, or_false, Prod.mk.injEq] at phase
    obtain ⟨hp, rfl⟩ | ⟨hp, rfl⟩ | ⟨hp, rfl⟩ := phase <;>
      simp [hp, zero, remaining]
  | turnsOutward phase | drivesLow phase | drivesHigh phase => simp [phase, remaining]
  | turnsInward phase =>
    simp [phase, remaining]
    omega
  | polls v wait => exact (remaining_of_held hw wait hi).1
  | waitTimesOut v wait => exact (remaining_of_held hw wait hi).2
  | handshakeEnds next phase =>
    simp only [List.mem_cons, List.not_mem_nil, or_false, Prod.mk.injEq] at phase
    obtain ⟨hp, rfl⟩ | ⟨hp, rfl⟩ | ⟨hp, rfl⟩ := phase
    all_goals
      have hlt := polled (hp ▸ rfl)
      have none := (hi.unstored (by simp [hp])).1
      have hbit : bitsLeft s.params w 40 = _ := bitsLeft_succ s.params w 39
      simp [hp, none, remaining]
      omega
  | bitLowEnds phase =>
    have hlt := polled (phase ▸ rfl)
    simp [phase, remaining]
    omega
  | samples phase inFrame =>
    have hidx : (s.bitIdx.toNat + 1) % 64 = s.bitIdx.toNat + 1 := by omega
    simp [phase, remaining, hidx]
  | nextBit phase notLast =>
    have hlt := polled (phase ▸ rfl)
    rw [phase] at hi
    obtain ⟨-, -, -, le⟩ := hi
    have hleft : 40 - s.bitIdx.toNat = 39 - s.bitIdx.toNat + 1 := by omega
    simp [phase, remaining, hleft, bitsLeft_succ]
    omega
  | lastBit phase =>
    have hlt := polled (phase ▸ rfl)
    have hpos := bitsLeft_pos s.params w (40 - s.bitIdx.toNat)
    simp [phase, remaining]
    omega

end Budget

/-- A READ in progress has a cycle to come. -/
theorem remaining_pos (w : Nat) (s : State) {p : Phase} (hp : p.isRead = true) : 0 < remaining w s p := by
  have hpos := bitsLeft_pos s.params w
  cases p
  case idle | dWait => cases hp
  case rValidate | rTimeout => exact Nat.one_pos
  all_goals exact Nat.add_pos_right _ (hpos _)

/-! ### The end of a READ -/

/-- How a READ with a valid handle ends: `DONE` in IDLE, the pad an input, and one of the three outcomes, given what the
measurement registers held before (rules R147, R148, R150, R151). -/
structure ReadEnded (hRaw tRaw : Option Tenths) (t : State) : Prop where
  done : t.done = true
  idle : t.phase = .idle
  listens : Listens t
  outcome : (t.status = .ok ∧ t.measValid = true ∧ t.bitIdx.toNat = 40 ∧ checksumOk t.payload = true ∧
      t.hRaw = some (humidityOf t.payload) ∧ t.tRaw = some (temperatureOf t.payload)) ∨
    (t.status = .error ∧ t.measValid = false ∧ t.bitIdx.toNat = 40 ∧ checksumOk t.payload = false ∧
      t.hRaw = hRaw ∧ t.tRaw = tRaw) ∨
    (t.status = .timeout ∧ t.measValid = false ∧ t.hRaw = hRaw ∧ t.tRaw = tRaw)

/-- A cycle of a READ goes on with it or ends it. -/
theorem read_goesOn_or_ended {s t : State} (hr : s.input.rst = false) (hs : s.phase.isRead = true)
    (hi : PhaseInv s s.phase) (h : step s = .next t) : ReadGoesOn s t ∨ ReadEnded s.hRaw s.tRaw t := by
  rw [step_of_busy hr fun hp => absurd (hp ▸ hs) nofun] at h
  by_cases hv : s.phase = .rValidate
  · rw [hv] at hi h
    obtain ⟨reading, listens, whole⟩ := hi
    obtain rfl := Host.Outcome.next.inj h
    by_cases good : checksumOk s.payload = true
    · rw [if_pos good]
      exact .inr ⟨rfl, rfl, listens, .inl ⟨rfl, rfl, whole, good, rfl, rfl⟩⟩
    · rw [if_neg good]
      exact .inr ⟨rfl, rfl, listens, .inr (.inl ⟨rfl, reading.2, whole, Bool.eq_false_iff.2 good, rfl, rfl⟩)⟩
  by_cases ht : s.phase = .rTimeout
  · rw [ht] at hi h
    obtain ⟨reading, listens⟩ := hi
    obtain rfl := Host.Outcome.next.inj h
    rw [State.setInput_of_valid reading.1]
    exact .inr ⟨rfl, rfl, ⟨rfl, listens.2⟩, .inr (.inr ⟨rfl, reading.2, rfl, rfl⟩)⟩
  exact .inl (readGoesOn_of_exec hs hv ht h)

/-- Every cycle without reset goes on to the next input record. -/
theorem Cycle.next_record {s t : State} (h : Cycle s t) : t.inputs = s.inputs.tail ∧ t.cycle = s.cycle + 1 := by
  cases h <;> simp

/-- A READ in progress ends within its measure, and is busy until then. -/
theorem read_ends {w m : Nat} {s : State} (adm : s.params.Admissible) (hw : s.params.waitBudget = some w)
    (hs : s.phase.isRead = true) (hd : s.done = false) (hi : PhaseInv s s.phase) (hm : remaining w s s.phase ≤ m)
    (hr : NoResetFor s m) :
    ∃ n t, n ≤ m ∧ runFor n s = .next t ∧ ReadEnded s.hRaw s.tRaw t ∧
      ∀ k < n, ∃ u, runFor k s = .next u ∧ u.phase.isRead = true ∧ u.done = false := by
  induction m generalizing s with
  | zero => exact absurd hm (Nat.not_le.2 (remaining_pos w s hs))
  | succ m ih =>
    have hreset : s.input.rst = false := hr 0 (Nat.succ_pos m)
    obtain ⟨t, ht⟩ := step_next_of_busy hreset (fun hp => absurd (hp ▸ hs) nofun) fun hp =>
      hi.moreBits (by simp [hp])
    have hc := cycle_of_step hreset ht
    obtain goesOn | ended := read_goesOn_or_ended hreset hs hi ht
    · obtain ⟨hinputs, hcycle⟩ := hc.next_record
      have hlt := hc.remaining_lt hw hs goesOn.reading hi
      obtain ⟨n, u, hn, hrun, hended, hbusy⟩ := ih (hc.params_eq ▸ adm) (hc.params_eq ▸ hw) goesOn.reading goesOn.done
        (hc.keeps_phaseInv adm hi) (by omega) (hr.succ hinputs hcycle)
      refine ⟨n + 1, u, by omega, by rwa [runFor_succ ht], goesOn.hRaw ▸ goesOn.tRaw ▸ hended, fun k hk => ?_⟩
      cases k with
      | zero => exact ⟨s, rfl, hs, hd⟩
      | succ k => rw [runFor_succ ht]; exact hbusy k (by omega)
    · refine ⟨1, t, by omega, by rw [runFor_succ ht, runFor_zero], ended, fun k hk => ?_⟩
      exact ⟨s, by rw [Nat.lt_one_iff.1 hk, runFor_zero], hs, hd⟩

/-- The acceptance of a READ with a valid handle starts it, with the measurement registers as before (rule R132). -/
theorem read_starts {s : State} (h : ReadAccepted s) (ok : HandleOk s.cmdHandle s) :
    ∃ t, step s = .next t ∧ t.phase = .rSetout ∧ t.done = false ∧ PhaseInv t .rSetout ∧ t.hRaw = s.hRaw ∧
      t.tRaw = s.tRaw := by
  obtain ⟨hp, hr, hv, hop, valid⟩ := h
  rw [step_of_accepts hr hp hv, hop]
  exact ⟨_, (exec_read_next_iff ..).2 ⟨ok, if_pos valid⟩, rfl, by simp, ⟨⟨by simp [valid], by simp⟩, rfl, rfl⟩,
    by simp, by simp⟩

end Machine

open Machine

/-- Settles O55: the acceptance starts a READ (`read_starts`), whose measure is the bound less the cycle of the
acceptance, and which ends within its measure (`read_ends`). -/
theorem readCompletesWithinItsBound : Obligations.ReadCompletesWithinItsBound := by
  intro s w adm hw hacc ok hr
  obtain ⟨t, hstart, hphase, hdone, hi, hh, ht⟩ := read_starts hacc ok
  have hc := cycle_of_step hacc.2.1 hstart
  obtain ⟨hinputs, hcycle⟩ := hc.next_record
  have hbound : remaining w t t.phase + 1 = readBound s.params w := by
    rw [hphase, ← hc.params_eq, remaining_rSetout]
  rw [← hbound] at hr ⊢
  obtain ⟨n, u, hn, hrun, ended, hbusy⟩ := read_ends (hc.params_eq ▸ adm) (hc.params_eq ▸ hw) (hphase ▸ rfl) hdone
    (hphase ▸ hi) le_rfl (hr.succ hinputs hcycle)
  refine ⟨n + 1, u, n.succ_pos, Nat.succ_le_succ hn, by rwa [runFor_succ hstart], ended.done, ended.idle, ?_,
    ended.listens.1, ended.listens.2, hh ▸ ht ▸ ended.outcome⟩
  intro k hpos hk
  obtain ⟨k, rfl⟩ := Nat.exists_eq_add_of_le' hpos
  rw [runFor_succ hstart]
  exact hbusy k (by omega)

end Sys2Proof
end

section
/-! Proofs of the statements about one definition each: IDLE with no command (rule R7), the direction primitives (rule
R113), the sample past the frame (log entry 5), and the outputs (rules R34, R38). -/

namespace Sys2Proof

namespace Machine

/-- IDLE with no command offered does only what every cycle does (rule R7). -/
theorem exec_idle_of_quiet {s : State} (hv : s.input.cmdValid = false) : exec .idle s = .next s.nextCycle :=
  if_neg (Bool.eq_false_iff.1 hv)

/-- Outside the frame there is no byte to store to (log entry 5). -/
theorem exec_rBitSample_of_le {s : State} (h : 40 ≤ s.bitIdx.toNat) :
    exec .rBitSample s = .fault .payloadIndexOutOfRange := if_neg (Nat.not_lt.2 h)

/-- The measurement is shown while it is valid, and has no value otherwise (rule R38). -/
theorem outputs_measurement (s : State) :
    (s.measValid = true → (outputs s).hRaw = s.hRaw ∧ (outputs s).tRaw = s.tRaw) ∧
    (s.measValid = false → (outputs s).hRaw = none ∧ (outputs s).tRaw = none) :=
  ⟨fun valid => ⟨if_pos valid, if_pos valid⟩,
    fun invalid => ⟨if_neg (Bool.eq_false_iff.1 invalid), if_neg (Bool.eq_false_iff.1 invalid)⟩⟩

/-- The pad's output enable is the direction (rule R34). -/
theorem outputs_lineOe_iff (s : State) : (outputs s).lineOe = true ↔ s.lineDir = .output := by
  change s.lineDir.bit = true ↔ _
  cases s.lineDir <;> simp [LineDir.bit]

/-- While the pad is an output it shows the latch, or a level drawn freely where the latch is empty (rules R28, R34). -/
theorem outputs_lineOut_of_output {s : State} (h : s.lineDir = .output) :
    (outputs s).lineOut = some (s.lineDrv.getD (Config.freePadLevel s.cycle)) := by
  change s.padLevel = _
  rw [State.padLevel, h, State.drivenLevel]

/-- While the pad is an input the block puts nothing on it (rules R117, R118). -/
theorem outputs_lineOut_of_input {s : State} (h : s.lineDir = .input) : (outputs s).lineOut = none := by
  change s.padLevel = _
  rw [State.padLevel, h]

end Machine

open Machine

/-- Settles O11: the next cycle's state, written out. -/
theorem idleWithoutCommandClearsDone : Obligations.IdleWithoutCommandClearsDone :=
  fun _ hv => exec_idle_of_quiet hv

/-- Settles O20: with a valid handle the second application writes what the first wrote, with an invalid one neither
writes. -/
theorem directionPrimitivesAreIdempotent : Obligations.DirectionPrimitivesAreIdempotent := by
  intro s h
  cases valid : h.valid
  · exact ⟨State.setOutput_of_invalid valid _, State.setInput_of_invalid valid _⟩
  · rw [State.setOutput_of_valid valid s, State.setInput_of_valid valid s]
    exact ⟨State.setOutput_of_valid valid _, State.setInput_of_valid valid _⟩

/-- Settles O35: the row's test of `BITIDX` fails. -/
theorem samplePastTheFrameStops : Obligations.SamplePastTheFrameStops :=
  fun _ h => exec_rBitSample_of_le h

/-- Settles O53: one fact per output; those that are a register by definition hold by unfolding. -/
theorem outputsAreFunctionsOfTheState : Obligations.OutputsAreFunctionsOfTheState := by
  intro s
  obtain ⟨shown, hidden⟩ := outputs_measurement s
  refine ⟨outputs_busy_iff s, beq_iff_eq, rfl, rfl, rfl, shown, hidden, outputs_lineOe_iff s, fun hout v hv => ?_,
    fun hout _ => ⟨_, outputs_lineOut_of_output hout⟩, outputs_lineOut_of_input, rfl, rfl⟩
  rw [outputs_lineOut_of_output hout, hv, Option.getD_some]

end Sys2Proof
end
